-- ==== Sys2Proof/Word.lean ====
section
/-! DEFINITION. The word types of the serial line and the index types of the part's channels, lines and records. -/

namespace Sys2Proof

/-- One byte of the serial line (11, R183). -/
abbrev Byte := BitVec 8

/-- A two-byte field of a frame (11, R184). -/
abbrev Word16 := BitVec 16

/-- The 32-bit millisecond clock and every time taken from it (06, R116; 10, R177). -/
abbrev Millis := BitVec 32

/-- A channel set as it travels: channel n in the bit of weight 2 to the power n (Table 11-1). -/
abbrev ChanSet := BitVec 8

/-- Channels 0 to 7 (R1). -/
abbrev ChanId := Fin 8

/-- Fault lines 0 to 3 (R51). -/
abbrev LineId := Fin 4

/-- Incident records 0 to 15 (R174). -/
abbrev RecId := Fin 16

end Sys2Proof
end

