-- ==== Sys2Proof/Syntax.lean ====
section
/-! DEFINITION. The commands of the part: one constructor per row of spec/opcode_table.json. -/

namespace Sys2Proof

/-- The two Hall phases of a channel (R19). -/
inductive HallPhase where
  | a
  | b
deriving DecidableEq, Repr

/-- One profile cell image of a PROFILE_LOAD (section 11.7): reference, adaptation count, state code and strikes. -/
structure CellImage where
  reference : Word16
  count : Word16
  stateCode : BitVec 4
  strikes : BitVec 4
deriving DecidableEq, Repr

/-- The commands. A request carries its frame's tag and the payload fields of Table 11-1 as they stand on the wire, so
that every value a frame can hold can be written; an event of the part carries the channel or line it reaches. -/
inductive Instr where
  /-- IDENTIFY (R190). -/
  | identify (tag : Byte)
  /-- CONFIGURE (R5): identifier, channel, value. -/
  | configure (tag ident ch : Byte) (value : Word16)
  /-- READ_PARAMETER (R8): identifier, channel. -/
  | readParameter (tag ident ch : Byte)
  /-- MOVE (R140): channel set, kind, direction, target. -/
  | move (tag : Byte) (set : ChanSet) (kind dir : Byte) (target : Word16)
  /-- STOP (R147): channel set. -/
  | stop (tag : Byte) (set : ChanSet)
  /-- VEHICLE_STATE (R110): road level, speed. -/
  | vehicleState (tag level : Byte) (speed : Word16)
  /-- CHANNEL_STATUS (R37). -/
  | channelStatus (tag ch : Byte)
  /-- READ_WINDOW (R114). -/
  | readWindow (tag ch : Byte)
  /-- CLEAR_CONDITIONS (R89). -/
  | clearConditions (tag ch : Byte)
  /-- CLEAR_FAULT (R56). -/
  | clearFault (tag ch : Byte)
  /-- PROFILE_READ (R132): channel, segment. -/
  | profileRead (tag ch seg : Byte)
  /-- PROFILE_LOAD (R133): channel, segment, eight cell images. -/
  | profileLoad (tag ch seg : Byte) (cells : List CellImage)
  /-- CHANNEL_RESTORE (R135): channel, position, travel count, reversal count. -/
  | channelRestore (tag ch : Byte) (position travel : Word16) (reversal : Byte)
  /-- CHANNEL_DEFAULTS (R161). -/
  | channelDefaults (tag ch : Byte)
  /-- INCIDENT_READ (R179). -/
  | incidentRead (tag : Byte)
  /-- INCIDENT_RELEASE (R180). -/
  | incidentRelease (tag ident : Byte)
  /-- LOCK (R16). -/
  | lock (tag : Byte)
  /-- RESET (R192): mode. -/
  | reset (tag mode : Byte)
  /-- DEVICE_STATUS (R191). -/
  | deviceStatus (tag : Byte)
  /-- SERIAL_BYTE_RECEIVED (R185): the byte, and whether its stop bit was found high (R183). -/
  | serialByteReceived (b : Byte) (stopHigh : Bool)
  /-- GAP_TIMER_EXPIRY (R185). -/
  | gapTimerExpiry
  /-- TRANSMIT_FRAME_END (R187). -/
  | transmitFrameEnd
  /-- POWER_ON_RESET (R17). -/
  | powerOnReset
  /-- COUNT (R34): the channel, and the one phase that changes at the sample (R21). -/
  | count (c : ChanId) (phase : HallPhase)
  /-- ILLEGAL_TRANSITION (R22). -/
  | illegalTransition (c : ChanId)
  /-- INTERVAL_TIMER_OVERFLOW (R26). -/
  | intervalTimerOverflow (c : ChanId)
  /-- STALL_WATCHDOG_EXPIRY (R31). -/
  | stallWatchdogExpiry (c : ChanId)
  /-- EVALUATION (R69): the channel whose oldest waiting request is taken. -/
  | evaluation (c : ChanId)
  /-- DWELL_EXPIRY (R152). -/
  | dwellExpiry (c : ChanId)
  /-- BACKOFF_TIMER_EXPIRY (R154). -/
  | backoffTimerExpiry (c : ChanId)
  /-- LEASE_EXPIRY (R146). -/
  | leaseExpiry (c : ChanId)
  /-- RAMP_STEP (R45). -/
  | rampStep (c : ChanId)
  /-- COMMON_MODE_HOLD_EXPIRY (R108). -/
  | commonModeHoldExpiry
  /-- ROAD_LEVEL_STALENESS_EXPIRY (R111). -/
  | roadLevelStalenessExpiry
  /-- SUPPLY_SAMPLE (R59): the level at the supply sense input, in mV. -/
  | supplySample (mv : Nat)
  /-- FAULT_LINE_ASSERTION (R52). -/
  | faultLineAssertion (l : LineId)
  /-- FAULT_LINE_RELEASE (R53). -/
  | faultLineRelease (l : LineId)
  /-- PWM_PERIOD_BOUNDARY (R43). -/
  | pwmPeriodBoundary (c : ChanId)
deriving DecidableEq, Repr

end Sys2Proof
end

