-- ==== Sys2Proof/Decode.lean ====
section
/-! DEFINITION. The table gives no row any bits (spec/opcode_table.json: every "fields" is empty), so no word spells a
command. Frames are decoded by the receiver, in Machine/Serial.lean. -/

namespace Sys2Proof

/-- The command a word spells by the table's bits: none, since the table gives no row bits (log 24). -/
def decodeTableWord (_nbits _w : Nat) : Option Instr := none

end Sys2Proof
end

