-- ==== Sys2Proof/Config.lean ====
section
/-! DEFINITION. What the manual leaves open and the model does not settle: the order of events that reach a block at the
same moment. Both constants have no body, so nothing can be proved of their values. -/

namespace Sys2Proof

/-- FREE VALUE (log 2, log 7). The manual says of events at one moment that they are taken "in either order". The key
of item k in the n-th open order; the items are taken in rising order of their keys, so every order is possible. -/
opaque Config.raceKey : Nat → Nat → Nat

/-- FREE VALUE (log 10). Of two events that one count report brings, whether the first named is taken first in the n-th
open choice. -/
opaque Config.raceFirst : Nat → Bool

end Sys2Proof
end

