-- ==== Sys2Proof/Machine/Params.lean ====
section
/-! DEFINITION. The parameters of Tables 1-1 and 1-3: identifiers, ranges, defaults, safety marks, and the sets that hold them (01). -/

namespace Sys2Proof.Machine

/-- The per-channel parameters of Table 1-1, in the table's order (R6). -/
inductive ChanParam where
  | enable | endMode | travelLength | phaseOrder | drivePolarity | captureTick | filterInterval
  | stallTimeout | startupBlanking | closingDuty | openingDuty | backoffDuty | seekDuty | startDuty
  | rampTime | dwellTime | backoffDistance | backoffTimeout | softClose | endTolerance | closingGain
  | tPinch | tUpper | tHard | tRoad | tCm | tOvr | persistenceDepth | persistenceCount | zSeal | zPinch
  | adaptShift | jogLease | reversalLimit | maskSupplyRange | maskLowDrive | maskPeriodOverflow
  | maskNoReference | maskEffortSat | maskGlitch | maskDrift
deriving DecidableEq, Repr

/-- What values a parameter takes: listed codes, or a range with both bounds (R6). -/
inductive Range where
  | codes (cs : List Nat)
  | span (lo hi : Nat)
deriving DecidableEq, Repr

/-- One row of Table 1-1. -/
structure ParamRow where
  ident : Nat
  range : Range
  default : Nat
  safety : Bool
deriving DecidableEq, Repr

/-- Table 1-1 (R6). The bounds that depend on another parameter (M, Z_seal, Z_pinch) stand here at their widest;
`chanTaken` narrows them by R7. -/
def ChanParam.row : ChanParam → ParamRow
  | .enable => ⟨0x00, .codes [0, 1], 0, false⟩
  | .endMode => ⟨0x01, .codes [0, 1], 0, true⟩
  | .travelLength => ⟨0x02, .span 64 4095, 800, true⟩
  | .phaseOrder => ⟨0x03, .codes [0, 1], 0, false⟩
  | .drivePolarity => ⟨0x04, .codes [0, 1], 0, false⟩
  | .captureTick => ⟨0x05, .codes [1, 2, 4, 8], 2, false⟩
  | .filterInterval => ⟨0x06, .span 1 16, 4, false⟩
  | .stallTimeout => ⟨0x07, .span 10 500, 80, true⟩
  | .startupBlanking => ⟨0x08, .span 4 64, 8, true⟩
  | .closingDuty => ⟨0x09, .span 0 1024, 1024, false⟩
  | .openingDuty => ⟨0x0A, .span 0 1024, 1024, false⟩
  | .backoffDuty => ⟨0x0B, .span 0 1024, 1024, false⟩
  | .seekDuty => ⟨0x0C, .span 0 1024, 600, false⟩
  | .startDuty => ⟨0x0D, .span 0 1024, 307, false⟩
  | .rampTime => ⟨0x0E, .span 0 200, 40, false⟩
  | .dwellTime => ⟨0x0F, .span 2 100, 10, true⟩
  | .backoffDistance => ⟨0x10, .span 16 4095, 320, true⟩
  | .backoffTimeout => ⟨0x11, .span 200 5000, 3000, true⟩
  | .softClose => ⟨0x12, .span 0 64, 4, true⟩
  | .endTolerance => ⟨0x13, .span 0 64, 12, true⟩
  | .closingGain => ⟨0x14, .span 1 4095, 8, true⟩
  | .tPinch => ⟨0x15, .span 0 2047, 60, true⟩
  | .tUpper => ⟨0x16, .span 0 2047, 90, true⟩
  | .tHard => ⟨0x17, .span 0 2047, 400, true⟩
  | .tRoad => ⟨0x18, .span 0 255, 8, true⟩
  | .tCm => ⟨0x19, .span 0 2047, 40, true⟩
  | .tOvr => ⟨0x1A, .span 0 2047, 80, true⟩
  | .persistenceDepth => ⟨0x1B, .span 1 8, 4, true⟩
  | .persistenceCount => ⟨0x1C, .span 1 8, 3, true⟩
  | .zSeal => ⟨0x1D, .span 0 255, 8, true⟩
  | .zPinch => ⟨0x1E, .span 0 4095, 320, true⟩
  | .adaptShift => ⟨0x1F, .span 1 4, 3, true⟩
  | .jogLease => ⟨0x20, .span 50 1000, 200, false⟩
  | .reversalLimit => ⟨0x21, .span 1 7, 3, true⟩
  | .maskSupplyRange => ⟨0x22, .codes [0, 1], 1, true⟩
  | .maskLowDrive => ⟨0x23, .codes [0, 1], 1, true⟩
  | .maskPeriodOverflow => ⟨0x24, .codes [0, 1], 1, true⟩
  | .maskNoReference => ⟨0x25, .codes [0, 1], 1, true⟩
  | .maskEffortSat => ⟨0x26, .codes [0, 1], 1, true⟩
  | .maskGlitch => ⟨0x27, .codes [0, 1], 1, true⟩
  | .maskDrift => ⟨0x28, .codes [0, 1], 1, true⟩

/-- Every per-channel parameter, by rising identifier. -/
def ChanParam.all : List ChanParam :=
  [.enable, .endMode, .travelLength, .phaseOrder, .drivePolarity, .captureTick, .filterInterval,
    .stallTimeout, .startupBlanking, .closingDuty, .openingDuty, .backoffDuty, .seekDuty, .startDuty,
    .rampTime, .dwellTime, .backoffDistance, .backoffTimeout, .softClose, .endTolerance, .closingGain,
    .tPinch, .tUpper, .tHard, .tRoad, .tCm, .tOvr, .persistenceDepth, .persistenceCount, .zSeal, .zPinch,
    .adaptShift, .jogLease, .reversalLimit, .maskSupplyRange, .maskLowDrive, .maskPeriodOverflow,
    .maskNoReference, .maskEffortSat, .maskGlitch, .maskDrift]

/-- The parameter of a per-channel identifier. -/
def ChanParam.ofIdent (n : Nat) : Option ChanParam :=
  ChanParam.all.find? (fun p => p.row.ident == n)

/-- The place of a parameter in a set: its identifier. -/
def ChanParam.slot (p : ChanParam) : Fin 41 := Fin.ofNat 41 p.row.ident

/-- One value of every per-channel parameter: a pending set or an active set (R2). -/
structure ParamSet where
  vals : Vector Nat 41
deriving DecidableEq, Repr

/-- The value of a parameter in a set. -/
def ParamSet.get (ps : ParamSet) (p : ChanParam) : Nat := ps.vals[p.slot]

/-- The set with one value replaced. -/
def ParamSet.set (ps : ParamSet) (p : ChanParam) (v : Nat) : ParamSet := ⟨ps.vals.set p.slot v⟩

/-- Whether an enumerated yes-or-no parameter of the set is 1. -/
def ParamSet.on (ps : ParamSet) (p : ChanParam) : Bool := ps.get p == 1

/-- Every parameter at its default (Table 1-1). -/
def ParamSet.defaults : ParamSet :=
  ChanParam.all.foldl (fun ps p => ps.set p p.row.default) ⟨Vector.replicate 41 0⟩

/-- The device-wide parameters of Table 1-3 (R15). -/
inductive DevParam where
  | slotCount | cmWindow | holdTime | roadStaleness
  | lineMap (l : LineId)
deriving DecidableEq, Repr

/-- Table 1-3 (R15): the identifier of a device-wide parameter. -/
def DevParam.ident : DevParam → Nat
  | .slotCount => 0x40
  | .cmWindow => 0x41
  | .holdTime => 0x42
  | .roadStaleness => 0x43
  | .lineMap l => 0x44 + l.val

/-- The device-wide parameter of an identifier. -/
def DevParam.ofIdent (n : Nat) : Option DevParam :=
  [DevParam.slotCount, .cmWindow, .holdTime, .roadStaleness, .lineMap 0, .lineMap 1, .lineMap 2, .lineMap 3].find?
    (fun p => p.ident == n)

/-- The device-wide parameters in force (R15). -/
structure Device where
  slotCount : Nat
  cmWindow : Nat
  holdTime : Nat
  roadStaleness : Nat
  maps : Vector ChanSet 4
deriving DecidableEq, Repr

/-- Table 1-3's defaults (R15, R17): line n maps channels 2n and 2n+1. -/
def Device.defaults : Device where
  slotCount := 2
  cmWindow := 16
  holdTime := 150
  roadStaleness := 1000
  maps := #v[0x03, 0x0C, 0x30, 0xC0]

/-- A number held to a range, both bounds included (00, "Out-of-range values"). -/
def clampNat (lo hi v : Nat) : Nat := max lo (min v hi)

/-- The value in force of a device-wide parameter (R8); a map is carried as its eight flags (R15). -/
def Device.get (d : Device) : DevParam → Nat
  | .slotCount => d.slotCount
  | .cmWindow => d.cmWindow
  | .holdTime => d.holdTime
  | .roadStaleness => d.roadStaleness
  | .lineMap l => d.maps[l].toNat

/-- The value taken for a device-wide parameter (Table 1-3): the nearer bound, or a map's eight lowest flags (R15). -/
def DevParam.taken : DevParam → Nat → Nat
  | .slotCount, v => clampNat 1 4 v
  | .cmWindow, v => clampNat 4 64 v
  | .holdTime, v => clampNat 50 1000 v
  | .roadStaleness, v => clampNat 200 5000 v
  | .lineMap _, v => v % 256

/-- The device-wide parameters with a taken value stored (R15). -/
def Device.put (d : Device) : DevParam → Nat → Device
  | .slotCount, v => { d with slotCount := v }
  | .cmWindow, v => { d with cmWindow := v }
  | .holdTime, v => { d with holdTime := v }
  | .roadStaleness, v => { d with roadStaleness := v }
  | .lineMap l, v => { d with maps := d.maps.set l (BitVec.ofNat 8 v) }

/-- Whether a value is among the codes of an enumerated parameter; every value is admitted for a numeric one (R5, check 3). -/
def Range.admits : Range → Nat → Bool
  | .codes cs, v => cs.contains v
  | .span _ _, _ => true

/-- The value taken for a per-channel parameter, against the pending set (R5, R7). -/
def chanTaken (ps : ParamSet) (p : ChanParam) (v : Nat) : Nat :=
  match p with
  | .persistenceCount => clampNat 1 (ps.get .persistenceDepth) v
  | .zPinch => clampNat (ps.get .zSeal) (ps.get .travelLength) v
  | .zSeal => clampNat 0 (min 255 (ps.get .travelLength)) v
  | p =>
    match p.row.range with
    | .codes _ => v
    | .span lo hi => clampNat lo hi v

/-- A set with Z_seal and Z_pinch lowered to a new L (R7, last adjustment). -/
def ParamSet.lowerZones (ps : ParamSet) (l : Nat) : ParamSet :=
  (ps.set .zSeal (min (ps.get .zSeal) l)).set .zPinch (min (ps.get .zPinch) l)

/-- A pending set after a taken value is stored, with the dependent adjustments of R7. -/
def ParamSet.store (ps : ParamSet) (p : ChanParam) (v : Nat) : ParamSet :=
  match p with
  | .persistenceDepth => (ps.set p v).set .persistenceCount (min (ps.get .persistenceCount) v)
  | .zSeal => (ps.set p v).set .zPinch (max (ps.get .zPinch) v)
  | .travelLength => (ps.set p v).lowerZones v
  | _ => ps.set p v

/-- The pending set after CHANNEL_DEFAULTS (R161): the defaults, but Enable, L and End mode kept, Z_pinch not above L. -/
def ParamSet.restoreDefaults (ps : ParamSet) : ParamSet :=
  ((((ParamSet.defaults.set .enable (ps.get .enable)).set .endMode (ps.get .endMode)).set .travelLength
    (ps.get .travelLength)).set .zPinch (min ChanParam.zPinch.row.default (ps.get .travelLength)))

end Sys2Proof.Machine
end

