-- ==== Sys2Proof/Machine/State.lean ====
section
/-! DEFINITION. The state of the part as plain data, block by block, and the state right after reset. -/

namespace Sys2Proof.Machine

/-- Why the part stops with a fault: never. Every irregularity of the spec is a reply code, a condition, a channel state
or a counter, and the part goes on; no command raises a fault. -/
inductive Fault where
deriving DecidableEq, Repr

/-- Why a command is refused by the model. -/
inductive Refusal where
  /-- Raised by a refused arm of exec alone, for a command without a meaning (safe: nothing can be proved of what it
  does). No arm raises it: every command has its meaning. -/
  | notModelled (mnemonic : String)
deriving DecidableEq, Repr

/-- A direction of travel (00, "Position"). -/
inductive Dir where
  | closing
  | opening
deriving DecidableEq, Repr

/-- The eight channel states (R139). -/
inductive ChState where
  | disabled | idle | queued | startup | travel | dwell | backoff | fault
deriving DecidableEq, Repr

/-- The three phases of a normalization (R159). -/
inductive NormPhase where
  | seek | openUp | fill
deriving DecidableEq, Repr

/-- A motion record: kind, direction, GOTO target, normalization phase (R139, section 8.1). -/
inductive Motion where
  | jog (d : Dir)
  | express (d : Dir)
  | goTo (d : Dir) (target : Nat)
  | normalize (p : NormPhase)
deriving DecidableEq, Repr

/-- The results a motion ends with (R162, Table 11-4). -/
inductive MotionResult where
  | completedClosed | completedOpen | targetReached | stopped | leaseExpired | blocked | reversed
  | backoffStalled | backoffTimeout | overrideStop | supplyCutoff | positionLost | faultStop
deriving DecidableEq, Repr

/-- The seven conditions (R85). -/
inductive Condition where
  | supplyRange | lowDrive | periodOverflow | noReference | effortSat | glitch | drift
deriving DecidableEq, Repr

/-- Why a channel is in FAULT (section 3.6). -/
inductive FaultCause where
  | none
  | bridge (line : LineId)
  | condition (cond : Condition)
deriving DecidableEq, Repr

/-- What a DWELL leads to: IDLE with its recorded result, or FAULT with its recorded cause (R152). -/
inductive Successor where
  | idle (result : MotionResult)
  | startup
  | backoff
  | fault (cond : Condition)
deriving DecidableEq, Repr

/-- The dwell record (R152): successor, dwell timer in µs remaining, and the direction of the drive the DWELL ended (log 12). -/
structure DwellRecord where
  successor : Successor
  timer : Nat
  drove : Dir
deriving DecidableEq, Repr

/-- The back-off record (R153, R154): target position, and the back-off timer in µs remaining once it runs. -/
structure BackoffRecord where
  target : Int
  timer : Option Nat
deriving DecidableEq, Repr

/-- The four output modes (R40). -/
inductive OutputMode where
  | off | brake | driveClose | driveOpen
deriving DecidableEq, Repr

/-- The tag of a window slot (section 6, state table). -/
inductive SlotTag where
  | empty | valid | neutral
deriving DecidableEq, Repr

/-- One slot of an excess window (R95). -/
structure Slot where
  value : Int
  tag : SlotTag
deriving DecidableEq, Repr

/-- The last evaluation summary (R105); a field that is absent is none. -/
structure Summary where
  x : Option (Int × SlotTag)
  k : Option (Fin 64)
  a : Option Int
  teff : Option Nat
deriving DecidableEq, Repr

/-- The state of a profile cell (R117). -/
inductive CellState where
  | empty | valid
deriving DecidableEq, Repr

/-- One profile cell (R117). -/
structure Cell where
  state : CellState
  reference : Nat
  count : Nat
  strikes : Nat
deriving DecidableEq, Repr

/-- One pair of the adaptation scratch (R78). -/
structure ScratchPair where
  sum : Nat
  count : Nat
deriving DecidableEq, Repr

/-- What the last closed end did to the profile (R126). -/
inductive AdaptOutcome where
  | none | adapted | barredPosition | barredDrift | barredTaint
deriving DecidableEq, Repr

/-- The adaptation summary (R126). -/
structure AdaptSummary where
  outcome : AdaptOutcome
  firstFilled : Nat
  inBand : Nat
  struck : Nat
  reanchored : Nat
  gapFilled : Nat
deriving DecidableEq, Repr

/-- The three zones (R9). -/
inductive Zone where
  | seal | pinch | upper
deriving DecidableEq, Repr

/-- The supply states (R60). -/
inductive SupplyState where
  | cutoff | low | normal | high
deriving DecidableEq, Repr

/-- The Position Decoder of one channel (02, state table). -/
structure Decoder where
  /-- Raw levels of the Hall inputs, set from outside (log 3). -/
  pinA : Bool
  pinB : Bool
  /-- Sample histories, oldest first (R19). -/
  histA : List Bool
  histB : List Bool
  /-- Filtered levels (R19). -/
  filtA : Bool
  filtB : Bool
  /-- µs to the next sample (R19). -/
  sampleIn : Nat
  position : Int
  /-- KNOWN is true (R23). -/
  known : Bool
  timer : Nat
  /-- µs since the last capture tick (R26, log 9). -/
  prescaler : Nat
  overflow : Nat
  /-- Oldest first (R28). -/
  ring : List Nat
  /-- µs remaining, none when stopped (R31). -/
  watchdog : Option Nat
  confirm : Nat
  difference : Int
  travel : Nat
  /-- Counts drive starts, to tell the drive of an evaluation request from a later one (R69, log 8). -/
  drive : Nat
deriving DecidableEq, Repr

/-- The drive output of one channel (03, state table). -/
structure DriveOut where
  mode : OutputMode
  target : Nat
  ramp : Nat
  /-- The next ramp step i of T, none when the ramp is idle (R45). -/
  step : Option Nat
  /-- µs to the next ramp step (R45). -/
  stepIn : Nat
  applied : Nat
  /-- µs into the PWM period, none when it is stopped (R43). -/
  pwm : Option Nat
deriving DecidableEq, Repr

/-- One flag per condition (R87). -/
structure ConditionFlags where
  supplyRange : Bool
  lowDrive : Bool
  periodOverflow : Bool
  noReference : Bool
  effortSat : Bool
  glitch : Bool
  drift : Bool
deriving DecidableEq, Repr

/-- What the Effort Evaluator keeps for one channel (05 and 06, state tables). -/
structure Excess where
  slots : Vector Slot 8
  top : Fin 8
  /-- Newest first (R103). -/
  history : List Bool
  summary : Summary
  sticky : ConditionFlags
  lastStep : Bool
  /-- The common-mode lane: the time of its mark, or no mark (R106). -/
  lane : Option Millis
deriving DecidableEq, Repr

/-- What the Reference Profile Store keeps for one channel (07, state table). -/
structure Profile where
  cells : Vector Cell 64
  scratch : Vector ScratchPair 64
  summary : AdaptSummary
deriving DecidableEq, Repr

/-- The Motion Sequencer of one channel (08, state table). -/
structure Sequencer where
  state : ChState
  motion : Option Motion
  /-- µs remaining, none when stopped (R146). -/
  lease : Option Nat
  blanking : Nat
  dwell : Option DwellRecord
  /-- The pinch-response marker (R153). -/
  marker : Bool
  backoff : Option BackoffRecord
  reversal : Nat
  override : Bool
  cause : FaultCause
  taint : Bool
  pending : ParamSet
  active : ParamSet
deriving DecidableEq, Repr

/-- One channel: the per-channel state of every block (section 1.1); its slot and queue entry stand in `Arbiter`. -/
structure Chan where
  pd : Decoder
  out : DriveOut
  ee : Excess
  rps : Profile
  ms : Sequencer
deriving DecidableEq, Repr

/-- One fault line (03, Fault Line Unit's state table); its map stands in `Device`. -/
structure FaultLine where
  /-- The raw level, true when active, set from outside (log 3). -/
  pin : Bool
  /-- The newest four samples, oldest first (R51). -/
  hist : List Bool
  asserted : Bool
  latch : Bool
deriving DecidableEq, Repr

/-- The Supply Monitor (04, state table). -/
structure Supply where
  /-- The level at the supply sense input in mV, set from outside (log 3). -/
  pin : Nat
  /-- Oldest first (R59). -/
  hist : List Nat
  u : Nat
  state : SupplyState
  /-- µs to the next sample (R59). -/
  sampleIn : Nat
deriving DecidableEq, Repr

/-- An evaluation request of the Position Decoder not yet taken (R29, R69). -/
structure EvalRequest where
  chan : ChanId
  /-- The drive the count came from (R69, log 8). -/
  drive : Nat
  /-- The stamped state: true for TRAVEL, false for STARTUP (R69). -/
  inTravel : Bool
  position : Int
  period : Nat
  overflowed : Bool
deriving DecidableEq, Repr

/-- The shared state of the Effort Evaluator (06, state table). -/
structure Effort where
  /-- The time of expiry of an active hold (R107). -/
  hold : Option Millis
  road : Nat
  /-- The time of expiry of the running staleness timer (R110). -/
  staleness : Option Millis
  speed : Word16
  /-- Oldest first (R69). -/
  requests : List EvalRequest
deriving DecidableEq, Repr

/-- An entry of the grant queue: a channel and its class (R166). -/
structure QueueEntry where
  chan : ChanId
  held : Bool
deriving DecidableEq, Repr

/-- The Drive Slot Arbiter (09, state table); the Slot count stands in `Device`. -/
structure Arbiter where
  /-- The slot holders, by rising channel number, no repeats (R164). -/
  holders : List ChanId
  /-- Head first (R166). -/
  queue : List QueueEntry
deriving DecidableEq, Repr

/-- The cause of an incident, with the line or condition it names (R177, R178). -/
inductive IncidentCause where
  | pinchEffort | pinchHard | pinchStall | overrideStop
  | bridge (line : LineId)
  | condition (cond : Condition)
deriving DecidableEq, Repr

/-- The further fields of the pinch and override causes (R178): summary, window and history, newest first. -/
structure Evidence where
  summary : Summary
  slots : List Slot
  history : List Bool
deriving DecidableEq, Repr

/-- An incident record (R177, R178); its identifier is its place in the pool. -/
structure Incident where
  chan : ChanId
  cause : IncidentCause
  time : Millis
  position : Int
  known : Bool
  zone : Zone
  reversal : Nat
  u : Nat
  applied : Nat
  road : Nat
  hold : Bool
  evidence : Option Evidence
deriving DecidableEq, Repr

/-- The Incident Pool (10, state table). -/
structure Pool where
  records : Vector Incident 16
  /-- Head first (R174). -/
  free : List RecId
  /-- The pending list, oldest first (R174). -/
  waiting : List RecId
  lost : Nat
deriving DecidableEq, Repr

/-- The receiver's phases (R185). -/
inductive RxPhase where
  | hunt | length | body | check
deriving DecidableEq, Repr

/-- The modes of a reset by request (R192). -/
inductive ResetMode where
  | full | preserve
deriving DecidableEq, Repr

/-- A reply in the reply queue (R186); the reply of an accepted RESET carries the reset to be taken at its end (R192). -/
structure Reply where
  type : Byte
  tag : Byte
  payload : List Byte
  reset : Option ResetMode
deriving DecidableEq, Repr

/-- The content of a MOTION_END notice (R162). -/
structure MotionEnd where
  result : MotionResult
  position : Int
  known : Bool
deriving DecidableEq, Repr

/-- The notice pending set (R188): one entry at most for each channel position and kind. -/
structure Notices where
  motionEnd : Vector (Option MotionEnd) 8
  incident : Vector (Option RecId) 8
  faultLine : Option (LineId × Bool)
  supply : Option (SupplyState × Nat)
deriving DecidableEq, Repr

/-- The frame the transmitter is sending (R187): its bytes on the line, whether it is the oldest reply, and the µs to its end. -/
structure Sending where
  isReply : Bool
  bytes : List Byte
  left : Nat
deriving DecidableEq, Repr

/-- The Link Controller (11, state table). -/
structure Link where
  phase : RxPhase
  buffer : List Byte
  /-- µs remaining of the gap timer, none when stopped (R185). -/
  gap : Option Nat
  /-- Oldest first (R186). -/
  replies : List Reply
  notices : Notices
  lastServed : Fin 9
  sending : Option Sending
  lengthErrors : Nat
  crcErrors : Nat
  timeouts : Nat
  overruns : Nat
  locked : Bool
deriving DecidableEq, Repr

/-- The part's millisecond clock (R116) and the µs within the millisecond. -/
structure Clock where
  ms : Millis
  us : Nat
deriving DecidableEq, Repr

/-- The whole part, the queue of waiting commands, and the model's own counter of open orders. -/
structure State where
  chans : Vector Chan 8
  device : Device
  lines : Vector FaultLine 4
  /-- µs to the next sample of the four fault lines (R51). -/
  lineSampleIn : Nat
  supply : Supply
  effort : Effort
  arbiter : Arbiter
  pool : Pool
  link : Link
  clock : Clock
  /-- The MODEL's own: how many open orders have been taken (log 2). -/
  races : Nat
  /-- The commands waiting, first in first out. -/
  pending : List Instr
deriving DecidableEq, Repr

/-- A decoder after a power-on reset whose first samples find both phases low (R20, R38, log 4). -/
def Decoder.reset : Decoder where
  pinA := false
  pinB := false
  histA := [false, false, false, false]
  histB := [false, false, false, false]
  filtA := false
  filtB := false
  sampleIn := ChanParam.filterInterval.row.default
  position := 0
  known := false
  timer := 0
  prescaler := 0
  overflow := 0
  ring := []
  watchdog := none
  confirm := 0
  difference := 0
  travel := 0
  drive := 0

/-- A drive output after any reset (R50). -/
def DriveOut.reset : DriveOut where
  mode := .off
  target := 0
  ramp := 0
  step := none
  stepIn := 0
  applied := 0
  pwm := none

/-- No condition flag set (R94). -/
def ConditionFlags.clear : ConditionFlags := ⟨false, false, false, false, false, false, false⟩

/-- A summary absent in every field (R96, R115). -/
def Summary.absent : Summary := ⟨none, none, none, none⟩

/-- A history of eight entries of 0 (R103). -/
def clearHistory : List Bool := [false, false, false, false, false, false, false, false]

/-- An EMPTY cell (R117). -/
def Cell.blank : Cell := ⟨.empty, 0, 0, 0⟩

/-- A cleared scratch (R79, R94). -/
def clearScratch : Vector ScratchPair 64 := Vector.replicate 64 ⟨0, 0⟩

/-- The evaluator's per-channel state after a power-on reset (R94, R115, R116). -/
def Excess.reset : Excess where
  slots := Vector.replicate 8 ⟨0, .empty⟩
  top := 0
  history := clearHistory
  summary := .absent
  sticky := .clear
  lastStep := false
  lane := none

/-- A profile after a power-on reset (R138). -/
def Profile.reset : Profile where
  cells := Vector.replicate 64 .blank
  scratch := clearScratch
  summary := ⟨.none, 0, 0, 0, 0, 0⟩

/-- A sequencer after a power-on reset (R17, R163). -/
def Sequencer.reset : Sequencer where
  state := .disabled
  motion := none
  lease := none
  blanking := 0
  dwell := none
  marker := false
  backoff := none
  reversal := 0
  override := false
  cause := .none
  taint := false
  pending := .defaults
  active := .defaults

/-- A channel after a power-on reset. -/
def Chan.reset : Chan := ⟨.reset, .reset, .reset, .reset, .reset⟩

/-- A fault line whose first sample finds it inactive (R58, log 4). -/
def FaultLine.reset : FaultLine := ⟨false, [false, false, false, false], false, false⟩

/-- The Supply Monitor after its first sample of 12600 mV (R68, log 4). -/
def Supply.reset : Supply := ⟨12600, [12600], 12600, .normal, 1000⟩

/-- The evaluator's shared state after any reset (R94, R116). -/
def Effort.reset : Effort := ⟨none, 0, none, 0, []⟩

/-- The arbiter after any reset (R173). -/
def Arbiter.reset : Arbiter := ⟨[], []⟩

/-- A free record nothing has been written to (log 18). -/
def Incident.blank : Incident :=
  ⟨0, .pinchEffort, 0, 0, false, .seal, 0, 0, 0, 0, false, none⟩

/-- All identifiers free, in rising order (R182). -/
def allFree : List RecId := [0, 1, 2, 3, 4, 5, 6, 7, 8, 9, 10, 11, 12, 13, 14, 15]

/-- The Incident Pool after a power-on reset (R182, log 18). -/
def Pool.reset : Pool := ⟨Vector.replicate 16 .blank, allFree, [], 0⟩

/-- No notice pending (R193). -/
def Notices.empty : Notices := ⟨Vector.replicate 8 .none, Vector.replicate 8 .none, .none, .none⟩

/-- The Link Controller after any reset (R193). -/
def Link.reset : Link where
  phase := .hunt
  buffer := []
  gap := none
  replies := []
  notices := .empty
  lastServed := 8
  sending := none
  lengthErrors := 0
  crcErrors := 0
  timeouts := 0
  overruns := 0
  locked := false

/-- The part right after a power-on reset, with the input levels of log 4 and no command waiting. -/
def State.reset : State where
  chans := Vector.replicate 8 .reset
  device := .defaults
  lines := Vector.replicate 4 .reset
  lineSampleIn := 2
  supply := .reset
  effort := .reset
  arbiter := .reset
  pool := .reset
  link := .reset
  clock := ⟨0, 0⟩
  races := 0
  pending := []

end Sys2Proof.Machine
end

