-- ==== Sys2Proof/Machine/Operands.lean ====
section
/-! DEFINITION. Operand forms of the requests and the codes and byte order of frames: channel numbers and sets, clamping,
the codes of Table 11-4, multi-byte fields and the CRC (11); the zones and the cell geometry (01, 07). -/

namespace Sys2Proof.Machine

/-- Channels 0 to 7, in order (R1). -/
def allChans : List ChanId := [0, 1, 2, 3, 4, 5, 6, 7]

/-- Fault lines 0 to 3, in order. -/
def allLines : List LineId := [0, 1, 2, 3]

/-- The channel a channel number selects; none for a number above 7 (R1). -/
def chanOf (b : Byte) : Option ChanId := if h : b.toNat < 8 then some ⟨b.toNat, h⟩ else none

/-- The segment a segment number selects (R132). -/
def segOf (b : Byte) : Option (Fin 8) := if h : b.toNat < 8 then some ⟨b.toNat, h⟩ else none

/-- The record an identifier selects; none above 15 (R180). -/
def recOf (b : Byte) : Option RecId := if h : b.toNat < 16 then some ⟨b.toNat, h⟩ else none

/-- Whether a channel set names a channel. -/
def inSet (m : ChanSet) (c : ChanId) : Bool := m.getLsbD c.val

/-- The channels of a set, in order of channel number (R140). -/
def chansOf (m : ChanSet) : List ChanId := allChans.filter (inSet m)

/-- A set of channels as it travels (Table 11-1). -/
def setOfChans (cs : List ChanId) : ChanSet :=
  cs.foldl (fun m c => m ||| BitVec.ofNat 8 (2 ^ c.val)) 0

/-- The parameter an identifier names (R5, check 1). -/
inductive ParamId where
  | chan (p : ChanParam)
  | dev (p : DevParam)
deriving DecidableEq, Repr

/-- The parameter of an identifier byte; none when it is not one of Tables 1-1 and 1-3. -/
def ParamId.ofByte (b : Byte) : Option ParamId :=
  match ChanParam.ofIdent b.toNat with
  | some p => some (.chan p)
  | none => (DevParam.ofIdent b.toNat).map ParamId.dev

/-- The status codes of replies (Table 11-4). -/
inductive Status where
  | ok | unknownType | badLength | badChannel | badValue | busy | locked | notNormalized
  | positionUnknown | reversing | reversalLimit | faulted | supply | notPending | disabled
deriving DecidableEq, Repr

/-- Table 11-4, "status". -/
def Status.code : Status → Byte
  | .ok => 0x00 | .unknownType => 0x01 | .badLength => 0x02 | .badChannel => 0x03 | .badValue => 0x04
  | .busy => 0x05 | .locked => 0x06 | .notNormalized => 0x07 | .positionUnknown => 0x08
  | .reversing => 0x09 | .reversalLimit => 0x0A | .faulted => 0x0B | .supply => 0x0C
  | .notPending => 0x0D | .disabled => 0x0E

/-- Table 11-4, "channel state". -/
def ChState.code : ChState → Byte
  | .disabled => 0 | .idle => 1 | .queued => 2 | .startup => 3 | .travel => 4 | .dwell => 5
  | .backoff => 6 | .fault => 7

/-- Table 11-4, "result". -/
def MotionResult.code : MotionResult → Byte
  | .completedClosed => 0 | .completedOpen => 1 | .targetReached => 2 | .stopped => 3
  | .leaseExpired => 4 | .blocked => 5 | .reversed => 6 | .backoffStalled => 7 | .backoffTimeout => 8
  | .overrideStop => 9 | .supplyCutoff => 10 | .positionLost => 11 | .faultStop => 12

/-- Table 11-4, "cause". -/
def IncidentCause.code : IncidentCause → Byte
  | .pinchEffort => 0 | .pinchHard => 1 | .pinchStall => 2 | .overrideStop => 3
  | .bridge _ => 4 | .condition _ => 5

/-- Table 11-4, "condition". -/
def Condition.code : Condition → Byte
  | .supplyRange => 0 | .lowDrive => 1 | .periodOverflow => 2 | .noReference => 3
  | .effortSat => 4 | .glitch => 5 | .drift => 6

/-- Table 11-4, "supply state". -/
def SupplyState.code : SupplyState → Byte
  | .cutoff => 0 | .low => 1 | .normal => 2 | .high => 3

/-- Table 11-4, "output mode". -/
def OutputMode.code : OutputMode → Byte
  | .off => 0 | .brake => 1 | .driveClose => 2 | .driveOpen => 3

/-- Table 11-4, "slot tag". -/
def SlotTag.code : SlotTag → Nat
  | .empty => 0 | .valid => 1 | .neutral => 2

/-- Table 11-4, "zone". -/
def Zone.code : Zone → Nat
  | .seal => 0 | .pinch => 1 | .upper => 2

/-- Table 11-4, "adaptation outcome". -/
def AdaptOutcome.code : AdaptOutcome → Byte
  | .none => 0 | .adapted => 1 | .barredPosition => 2 | .barredDrift => 3 | .barredTaint => 4

/-- The low byte of a number. -/
def byteOf (n : Nat) : Byte := BitVec.ofNat 8 n

/-- A two-byte field, least significant byte first (R184). -/
def le16 (n : Nat) : List Byte := [byteOf n, byteOf (n / 256)]

/-- A signed two-byte field in two's complement (R184). -/
def leInt16 (i : Int) : List Byte := le16 (BitVec.ofInt 16 i).toNat

/-- A four-byte field, least significant byte first (R184). -/
def le32 (n : Nat) : List Byte := [byteOf n, byteOf (n / 256), byteOf (n / 65536), byteOf (n / 16777216)]

/-- A two-byte field received, least significant byte first (R184). -/
def word16 (lo hi : Byte) : Word16 := BitVec.ofNat 16 (lo.toNat + 256 * hi.toNat)

/-- A flag as a number, to be weighted. -/
def bit (b : Bool) : Nat := if b then 1 else 0

/-- One shift of the CRC register (R184). -/
def crcShift (r : Byte) : Byte := if r.msb then (r <<< 1) ^^^ 0x2F else r <<< 1

/-- One byte entered into the CRC register (R184). -/
def crcByte (r b : Byte) : Byte := (List.range 8).foldl (fun r _ => crcShift r) (r ^^^ b)

/-- The CRC over a list of bytes (R184). -/
def crc (bs : List Byte) : Byte := bs.foldl crcByte 0xFF

/-- A frame on the line (R184, section 11.7). -/
def wireFrame (type tag : Byte) (payload : List Byte) : List Byte :=
  let body := byteOf payload.length :: type :: tag :: payload
  (0x7E : Byte) :: (body ++ [crc body])

/-- The bits of a byte on the line: start bit, eight data bits from the least significant, stop bit (R183); a low start bit and
a high level for a data bit of 1 are the model's choice (log 40). -/
def lineBits (b : Byte) : List Bool := false :: ((List.range 8).map (fun i => b.getLsbD i) ++ [true])

/-- A number held to a range of integers. -/
def clampInt (lo hi v : Int) : Int := max lo (min v hi)

/-- The zone of a position, by a set's Z_seal and Z_pinch (R9). -/
def zoneAt (ps : ParamSet) (p : Int) : Zone :=
  if p < (ps.get .zSeal : Int) then .seal
  else if p < (ps.get .zPinch : Int) then .pinch
  else .upper

/-- The cell width Wc = ceil(L / 64) (R118). -/
def cellWidth (l : Nat) : Nat := (l + 63) / 64

/-- The cell a position is attributed to (R77). -/
def cellIndex (l : Nat) (p : Int) : Fin 64 :=
  ⟨min 63 (p.toNat / cellWidth l), by omega⟩

/-- Whether a cell is required: kmin to kmax of R119. -/
def cellRequired (l zSeal : Nat) (k : Fin 64) : Bool :=
  decide (zSeal / cellWidth l ≤ k.val ∧ k.val ≤ min 63 (l / cellWidth l))

/-- The cell numbers 0 to 63. -/
def allCells : List (Fin 64) := List.finRange 64

/-- The number of required cells (R119). -/
def requiredCount (l zSeal : Nat) : Nat := (allCells.filter (cellRequired l zSeal)).length

/-- The fill progress: required cells that are VALID (R119). -/
def fillProgress (cells : Vector Cell 64) (l zSeal : Nat) : Nat :=
  (allCells.filter (fun k => cellRequired l zSeal k && decide (cells[k].state = .valid))).length

/-- A profile is complete when every required cell is VALID (R119). -/
def profileComplete (cells : Vector Cell 64) (l zSeal : Nat) : Bool :=
  allCells.all (fun k => !cellRequired l zSeal k || decide (cells[k].state = .valid))

/-- The newest n entries of a list with a new one appended; the oldest are dropped (R19, R28, R51, R59). -/
def pushLast {α : Type} (n : Nat) (xs : List α) (x : α) : List α :=
  (xs ++ [x]).drop ((xs ++ [x]).length - n)

end Sys2Proof.Machine
end

