-- ==== Sys2Proof/Machine/Flags.lean ====
section
/-! DEFINITION. The condition flags and masks (05, R85 to R89), the travel-taint flag (R92) and the direction of a motion. -/

namespace Sys2Proof.Machine

/-- The parameter that masks a condition (Table 1-1). -/
def Condition.mask : Condition → ChanParam
  | .supplyRange => .maskSupplyRange
  | .lowDrive => .maskLowDrive
  | .periodOverflow => .maskPeriodOverflow
  | .noReference => .maskNoReference
  | .effortSat => .maskEffortSat
  | .glitch => .maskGlitch
  | .drift => .maskDrift

/-- The flag of a condition (R87). -/
def ConditionFlags.get (f : ConditionFlags) : Condition → Bool
  | .supplyRange => f.supplyRange
  | .lowDrive => f.lowDrive
  | .periodOverflow => f.periodOverflow
  | .noReference => f.noReference
  | .effortSat => f.effortSat
  | .glitch => f.glitch
  | .drift => f.drift

/-- The flags with one set (R87). -/
def ConditionFlags.raise (f : ConditionFlags) : Condition → ConditionFlags
  | .supplyRange => { f with supplyRange := true }
  | .lowDrive => { f with lowDrive := true }
  | .periodOverflow => { f with periodOverflow := true }
  | .noReference => { f with noReference := true }
  | .effortSat => { f with effortSat := true }
  | .glitch => { f with glitch := true }
  | .drift => { f with drift := true }

/-- The seven conditions, by rising code. -/
def allConditions : List Condition :=
  [.supplyRange, .lowDrive, .periodOverflow, .noReference, .effortSat, .glitch, .drift]

/-- The flags as they travel: bit n for condition code n (section 11.7), bit 7 without a name 0 (log 38). -/
def ConditionFlags.byte (f : ConditionFlags) : Byte :=
  byteOf (allConditions.foldl (fun n c => n + bit (f.get c) * 2 ^ c.code.toNat) 0)

/-- Whether the active mask tolerates a condition (R86). -/
def Chan.masked (k : Chan) (c : Condition) : Bool := k.ms.active.on c.mask

/-- A condition is raised for the channel: its sticky flag is set, whatever the mask (R87). -/
def Chan.raise (k : Chan) (c : Condition) : Chan :=
  { k with ee := { k.ee with sticky := k.ee.sticky.raise c } }

/-- The direction a phase of a normalization drives in (R159). -/
def NormPhase.dir : NormPhase → Dir
  | .seek | .fill => .closing
  | .openUp => .opening

/-- The direction of a motion (R41, R139). -/
def Motion.dir : Motion → Dir
  | .jog d | .express d | .goTo d _ => d
  | .normalize p => p.dir

/-- JOG and NORMALIZE are held, and queue in class HELD (R146, R166). -/
def Motion.held : Motion → Bool
  | .jog _ | .normalize _ => true
  | .express _ | .goTo _ _ => false

/-- A closing EXPRESS or GOTO: the motions that need a KNOWN position (R141, R157). -/
def Motion.unattendedClose : Motion → Bool
  | .express .closing | .goTo .closing _ => true
  | _ => false

/-- Whether the motion is in its SEEK phase. -/
def Motion.seeking (m : Motion) : Bool := m == .normalize .seek

/-- Whether the motion is in its FILL phase. -/
def Motion.filling (m : Motion) : Bool := m == .normalize .fill

/-- STARTUP, TRAVEL and BACKOFF: the states in which the bridge is driven (R41). -/
def ChState.driving : ChState → Bool
  | .startup | .travel | .backoff => true
  | _ => false

/-- The commanded direction of a driving channel: opening in BACKOFF, otherwise that of the motion (R28). -/
def Chan.commanded (k : Chan) : Option Dir :=
  match k.ms.state with
  | .startup | .travel => k.ms.motion.map Motion.dir
  | .backoff => some .opening
  | _ => none

/-- Whether the channel is in the STARTUP, TRAVEL or DWELL of a closing motion (R22). A DWELL without a motion record
belongs to the motion whose drive it ended (log 12). -/
def Chan.inClosingMotion (k : Chan) : Bool :=
  match k.ms.state with
  | .startup | .travel => k.ms.motion.map Motion.dir == some .closing
  | .dwell =>
    match k.ms.motion with
    | some m => m.dir == .closing
    | none => k.ms.dwell.map DwellRecord.drove == some .closing
  | _ => false

/-- The travel-taint flag is set (R92). -/
def Chan.setTaint (k : Chan) : Chan := { k with ms := { k.ms with taint := true } }

end Sys2Proof.Machine
end

