-- ==== Sys2Proof/Machine/Ops.lean ====
section
/-! DEFINITION. The operations the commands share: access to a channel, notices, incident records, drive slots and grants,
and the entries into the channel states. -/

namespace Sys2Proof.Machine

/-- A channel of the part. -/
def State.ch (s : State) (c : ChanId) : Chan := s.chans[c]

/-- The part with a channel replaced. -/
def State.setCh (s : State) (c : ChanId) (k : Chan) : State := { s with chans := s.chans.set c k }

/-- The part with a channel changed. -/
def State.modCh (s : State) (c : ChanId) (f : Chan → Chan) : State := s.setCh c (f (s.ch c))

/-- The part with every channel changed. -/
def State.mapCh (s : State) (f : Chan → Chan) : State := { s with chans := s.chans.map f }

/-! ## Open orders (log 2, log 7) -/

/-- Puts an item into its place by rising key. -/
def insertByKey {α : Type} (key : α → Nat) (x : α) : List α → List α
  | [] => [x]
  | y :: ys => if key x ≤ key y then x :: y :: ys else y :: insertByKey key x ys

/-- The items by rising key. -/
def orderByKey {α : Type} (key : α → Nat) : List α → List α
  | [] => []
  | x :: xs => insertByKey key x (orderByKey key xs)

/-- The items in the open order that is taken next: a free value (log 7). -/
def State.openOrder {n : Nat} (s : State) (xs : List (Fin n)) : List (Fin n) :=
  orderByKey (fun x => Config.raceKey s.races x.val) xs

/-- Another open order has been taken. -/
def State.countRace (s : State) : State := { s with races := s.races + 1 }

/-! ## Notices (R188) -/

/-- MOTION_END of a channel, with the position and validity of this moment (R162). -/
def State.postMotionEnd (s : State) (c : ChanId) (r : MotionResult) : State :=
  let k := s.ch c
  { s with link := { s.link with notices := { s.link.notices with
      motionEnd := s.link.notices.motionEnd.set c (some ⟨r, k.pd.position, k.pd.known⟩) } } }

/-- INCIDENT of a channel (R175). -/
def State.postIncident (s : State) (c : ChanId) (r : RecId) : State :=
  { s with link := { s.link with notices := { s.link.notices with
      incident := s.link.notices.incident.set c (some r) } } }

/-- FAULT_LINE with a line and its level (R52, R53). -/
def State.postFaultLine (s : State) (l : LineId) (level : Bool) : State :=
  { s with link := { s.link with notices := { s.link.notices with faultLine := some (l, level) } } }

/-- SUPPLY_STATE with the state and U of this moment (R61). -/
def State.postSupply (s : State) : State :=
  { s with link := { s.link with notices := { s.link.notices with
      supply := some (s.supply.state, s.supply.u) } } }

/-! ## Incident records (R175 to R178) -/

/-- Whether a cause carries the summary, the window and the history (R178). -/
def IncidentCause.hasEvidence : IncidentCause → Bool
  | .pinchEffort | .pinchHard | .pinchStall | .overrideStop => true
  | .bridge _ | .condition _ => false

/-- The window from its newest slot back to the oldest (R114, R178). -/
def Excess.newestFirst (e : Excess) : List Slot :=
  [e.slots[e.top], e.slots[e.top - 1], e.slots[e.top - 2], e.slots[e.top - 3],
    e.slots[e.top - 4], e.slots[e.top - 5], e.slots[e.top - 6], e.slots[e.top - 7]]

/-- A record filled from the state of the part at the instant it is taken (R177, R178), with the position the cause calls for.
The zone is judged from the position the record carries, which for a pinch response is the position at the pinch (log 39). -/
def State.fillRecord (s : State) (c : ChanId) (cause : IncidentCause) (p : Int) (known : Bool) : Incident :=
  let k := s.ch c
  { chan := c
    cause := cause
    time := s.clock.ms
    position := p
    known := known
    zone := zoneAt k.ms.active p
    reversal := k.ms.reversal
    u := s.supply.u
    applied := k.out.applied
    road := s.effort.road
    hold := s.effort.hold.isSome
    evidence := if cause.hasEvidence then some ⟨k.ee.summary, k.ee.newestFirst, k.ee.history⟩ else none }

/-- A record is requested: the head of the free list is taken, or the incident is lost (R175, R176). -/
def State.takeRecord (s : State) (c : ChanId) (cause : IncidentCause) (p : Int) (known : Bool) : State :=
  match s.pool.free with
  | [] => { s with pool := { s.pool with lost := min 255 (s.pool.lost + 1) } }
  | r :: rest =>
    { s with pool :=
        { s.pool with
          records := s.pool.records.set r (s.fillRecord c cause p known)
          free := rest
          waiting := s.pool.waiting ++ [r] } }.postIncident c r

/-- A record of the counter and validity of this instant (R177). -/
def State.takeRecordHere (s : State) (c : ChanId) (cause : IncidentCause) : State :=
  s.takeRecord c cause (s.ch c).pd.position (s.ch c).pd.known

/-! ## Outputs and the entries into the states -/

/-- The high-supply ceiling on a ramp value (R47). -/
def Supply.limit (su : Supply) (ramp : Nat) : Nat :=
  match su.state with
  | .high => min ramp (16384000 / su.u)
  | _ => ramp

/-- The outputs leave their DRIVE mode: ramp idle, applied duty 0, PWM stopped (R43, R46, R49). -/
def DriveOut.leave (o : DriveOut) (m : OutputMode) : DriveOut :=
  { o with mode := m, step := none, stepIn := 0, applied := 0, pwm := none }

/-- The outputs begin a drive: a new PWM period with the duty then in force (R43 to R46). -/
def DriveOut.begin (o : DriveOut) (su : Supply) (m : OutputMode) (target start rampTime : Nat) : DriveOut :=
  let r := if rampTime = 0 then target else min start target
  { o with
    mode := m
    target := target
    ramp := r
    step := if rampTime = 0 then none else some 1
    stepIn := if rampTime = 0 then 0 else 1000
    applied := su.limit r
    pwm := some 0 }

/-- The DRIVE mode of a direction (R41). -/
def Dir.mode : Dir → OutputMode
  | .closing => .driveClose
  | .opening => .driveOpen

/-- The target duty of a motion's drive (R44). -/
def ParamSet.runDuty (ps : ParamSet) : Motion → Nat
  | .normalize .seek => ps.get .seekDuty
  | m => match m.dir with
    | .closing => ps.get .closingDuty
    | .opening => ps.get .openingDuty

/-- The decoder's drive start (R30). -/
def Decoder.driveStart (d : Decoder) (stallMs : Nat) : Decoder :=
  { d with timer := 0, prescaler := 0, overflow := 0, ring := [], confirm := 0,
           watchdog := some (stallMs * 1000), drive := d.drive + 1 }

/-- The window emptied: tags EMPTY and top pointer 0, the values kept (R96). -/
def Excess.emptyWindow (e : Excess) : Excess :=
  { e with slots := e.slots.map (fun sl => { sl with tag := .empty }), top := 0 }

/-- The adaptation scratch is cleared or discarded (R79, log 23). -/
def Chan.discardScratch (k : Chan) : Chan := { k with rps := { k.rps with scratch := clearScratch } }

/-- The copy of the pending set into the active set, and the override flag judged (R3). -/
def Sequencer.copySets (m : Sequencer) : Sequencer :=
  { m with active := m.pending, override := decide (m.pending.get .reversalLimit ≤ m.reversal) }

/-- Entry into STARTUP with a motion, in the order of R148. -/
def Chan.enterStartup (k : Chan) (su : Supply) (m : Motion) : Chan :=
  let ms := k.ms.copySets
  let ps := ms.active
  { pd := k.pd.driveStart (ps.get .stallTimeout)
    out := k.out.begin su m.dir.mode (ps.runDuty m) (ps.get .startDuty) (ps.get .rampTime)
    ee := { k.ee.emptyWindow with summary := .absent, history := clearHistory }
    rps := if m.dir = .closing then { k.rps with scratch := clearScratch } else k.rps
    ms := { ms with state := .startup, motion := some m, dwell := none, taint := false, blanking := 0, marker := false } }

/-- Entry into TRAVEL: the window is emptied, the summary kept (R96, R148). -/
def Chan.enterTravel (k : Chan) : Chan :=
  { k with ee := k.ee.emptyWindow, ms := { k.ms with state := .travel } }

/-- Entry into BACKOFF: a drive start, DRIVE-OPEN at the Back-off duty without ramp, the back-off timer (R154). -/
def Chan.enterBackoff (k : Chan) (su : Supply) (target : Int) : Chan :=
  let ps := k.ms.active
  { k with
    pd := k.pd.driveStart (ps.get .stallTimeout)
    out := k.out.begin su .driveOpen (ps.get .backoffDuty) (ps.get .backoffDuty) 0
    ms := { k.ms with state := .backoff, dwell := none,
                      backoff := some ⟨target, some (ps.get .backoffTimeout * 1000)⟩ } }

/-- The direction of the drive a channel is in. -/
def Chan.droveDir (k : Chan) : Dir := k.commanded.getD .opening

/-- Entry into DWELL with a successor: braked, the records the successor does not need removed (R49, R139, R152). The
drive's scratch is discarded (R121, log 23). -/
def Chan.enterDwell (k : Chan) (succ : Successor) : Chan :=
  { k with
    pd := { k.pd with watchdog := none }
    out := k.out.leave .brake
    rps := { k.rps with scratch := clearScratch }
    ms := { k.ms with
      state := .dwell
      dwell := some ⟨succ, k.ms.active.get .dwellTime * 1000, k.droveDir⟩
      motion := if succ = .startup then k.ms.motion else none
      lease := if succ = .startup then k.ms.lease else none
      backoff := if succ = .backoff then k.ms.backoff else none } }

/-- A channel comes to rest in a state without a motion: outputs OFF, every record and timer removed (R139, R158, R163). -/
def Chan.rest (k : Chan) (st : ChState) (cause : FaultCause) : Chan :=
  { k with
    pd := { k.pd with watchdog := none }
    out := k.out.leave .off
    ms := { k.ms with state := st, motion := none, lease := none, dwell := none, marker := false,
                      backoff := none, cause := cause } }

/-- Entry into IDLE: at rest, the common-mode lane cleared (R106). -/
def Chan.enterIdle (k : Chan) : Chan :=
  let r := k.rest .idle .none
  { r with ee := { r.ee with lane := none } }

/-! ## Slots and grants (09) -/

/-- A holder added in its place by rising channel number. -/
def insertChan (c : ChanId) : List ChanId → List ChanId
  | [] => [c]
  | d :: ds => if c < d then c :: d :: ds else if c = d then d :: ds else d :: insertChan c ds

/-- Whether a grant can be made: a slot is free and the supply is NORMAL (R62, R168). -/
def State.canGrant (s : State) : Bool :=
  decide (s.arbiter.holders.length < s.device.slotCount) && decide (s.supply.state = .normal)

/-- A channel is given a slot and enters STARTUP with its motion (R148, R165). -/
def State.grant (s : State) (c : ChanId) : State :=
  match (s.ch c).ms.motion with
  | some m =>
    { s with arbiter := { s.arbiter with holders := insertChan c s.arbiter.holders } }.modCh c
      (fun k => k.enterStartup s.supply m)
  | none => s

/-- A grant pass over at most n heads of the queue (R168). -/
def State.grantHeads : Nat → State → State
  | 0, s => s
  | n + 1, s =>
    match s.arbiter.queue with
    | [] => s
    | e :: rest =>
      if s.canGrant then
        State.grantHeads n ({ s with arbiter := { s.arbiter with queue := rest } }.grant e.chan)
      else s

/-- A grant pass (R168). -/
def State.grantPass (s : State) : State := State.grantHeads s.arbiter.queue.length s

/-- A channel's slot and queue entry given up, no grant pass made yet (R165, R170). -/
def State.detach (s : State) (c : ChanId) : State :=
  { s with arbiter :=
      { holders := s.arbiter.holders.filter (· != c), queue := s.arbiter.queue.filter (·.chan != c) } }

/-- A channel leaves the arbiter: its queue entry is removed (R170), or its slot released and a grant pass made (R165). -/
def State.leaveArbiter (s : State) (c : ChanId) : State :=
  if s.arbiter.holders.contains c then (s.detach c).grantPass else s.detach c

/-- The place of a new entry: behind every entry of its own class (R166, R167). -/
def insertEntry (e : QueueEntry) : List QueueEntry → List QueueEntry
  | [] => [e]
  | d :: ds => if e.held && !d.held then e :: d :: ds else d :: insertEntry e ds

/-- A channel with a motion written asks for a slot: granted at once, or QUEUED and a grant pass (R167). -/
def State.askSlot (s : State) (c : ChanId) (m : Motion) : State :=
  if s.canGrant && s.arbiter.queue.isEmpty then s.grant c
  else
    State.grantPass
      { s.modCh c (fun k => { k with ms := { k.ms with state := .queued } }) with
        arbiter := { s.arbiter with queue := insertEntry ⟨c, m.held⟩ s.arbiter.queue } }

/-! ## Ends of motions and stops -/

/-- A channel's motion ends in IDLE: MOTION_END, and its slot or queue entry given up (R152, R162, R165, R170). -/
def State.endIdle (s : State) (c : ChanId) (r : MotionResult) : State :=
  ((s.modCh c Chan.enterIdle).postMotionEnd c r).leaveArbiter c

/-- The channel's part of an entry into FAULT: the records removed, MOTION_END FAULT_STOP when it ends a motion (R158). -/
def State.stopToFault (s : State) (c : ChanId) (cause : FaultCause) : State :=
  let s1 := s.modCh c (fun k => k.discardScratch.rest .fault cause)
  match (s.ch c).ms.state with
  | .queued | .startup | .travel | .dwell | .backoff => s1.postMotionEnd c .faultStop
  | .disabled | .idle | .fault => s1

/-- Entry into FAULT, slot or queue entry given up (R158). -/
def State.enterFault (s : State) (c : ChanId) (cause : FaultCause) : State :=
  (s.stopToFault c cause).leaveArbiter c

/-- A driving channel enters DWELL toward IDLE with a result. -/
def State.dwellIdle (s : State) (c : ChanId) (r : MotionResult) : State :=
  s.modCh c (fun k => k.enterDwell (.idle r))

/-- A condition stop of a driving channel (R90); a channel that is not driving is not stopped. -/
def State.conditionStop (s : State) (c : ChanId) (cond : Condition) : State :=
  if (s.ch c).ms.state.driving then
    (s.takeRecordHere c (.condition cond)).modCh c (fun k => k.enterDwell (.fault cond))
  else s

/-- A fault line's latch judged: cleared when the line is INACTIVE and no mapped channel is in FAULT (R54). -/
def State.judgeLatch (s : State) (l : LineId) : State :=
  let line := s.lines[l]
  if line.asserted || (chansOf s.device.maps[l]).any (fun c => decide ((s.ch c).ms.state = .fault)) then s
  else { s with lines := s.lines.set l { line with latch := false } }

/-- The latches of the lines that map a channel judged (R54). -/
def State.judgeLatchesOf (s : State) (c : ChanId) : State :=
  allLines.foldl (fun s l => if inSet s.device.maps[l] c then s.judgeLatch l else s) s

/-- Whether an asserted fault line maps a channel (R12, R56). -/
def State.faultedBy (s : State) (c : ChanId) : Bool :=
  allLines.any (fun l => s.lines[l].asserted && inSet s.device.maps[l] c)

/-- A channel is told of an assertion of a line that maps it (R52, table); the grant pass for its slot comes after the last
channel has been told (log 34). -/
def State.assertOn (s : State) (l : LineId) (c : ChanId) : State :=
  match (s.ch c).ms.state with
  | .disabled | .fault => s
  | .idle | .queued | .startup | .travel | .dwell | .backoff =>
    ((s.takeRecordHere c (.bridge l)).stopToFault c (.bridge l)).detach c

/-- Whether an assertion acts on a channel: it is enabled and not in FAULT (R52). -/
def State.assertable (s : State) (c : ChanId) : Bool :=
  match (s.ch c).ms.state with
  | .disabled | .fault => false
  | _ => true

/-- The channels of a set are told of an assertion, in an open order (R52, log 7), each acting by its state at the assertion;
the slots they release go to the queue once all have been told (log 34). -/
def State.assertOnAll (s : State) (l : LineId) (cs : List ChanId) : State :=
  let acting := cs.filter s.assertable
  let s1 := (s.openOrder acting).foldl (fun s c => s.assertOn l c) s.countRace
  if acting.any s.arbiter.holders.contains then s1.grantPass else s1

/-- A fault line asserts: latch, channels, notice (R52). -/
def State.assertLine (s : State) (l : LineId) : State :=
  let s1 := { s with lines := s.lines.set l { s.lines[l] with asserted := true, latch := true } }
  (s1.assertOnAll l (chansOf s1.device.maps[l])).postFaultLine l true

/-- A record of a profile emptied (R11, R117, R128). -/
def Chan.emptyProfile (k : Chan) : Chan := { k with rps := { k.rps with cells := Vector.replicate 64 .blank } }

/-- The position counter set and KNOWN (R24). -/
def Chan.setPosition (k : Chan) (p : Int) : Chan := { k with pd := { k.pd with position := p, known := true } }

/-- The position made UNKNOWN, the counter kept (R25). -/
def Chan.losePosition (k : Chan) : Chan := { k with pd := { k.pd with known := false } }

end Sys2Proof.Machine
end

