-- ==== Sys2Proof/Machine/Adaptation.lean ====
section
/-! DEFINITION. The adaptation of a profile at a closed end (R120 to R126) and the gap completion of FILL (R130). -/

namespace Sys2Proof.Machine

/-- The mean of a scratch pair (R122). -/
def ScratchPair.mean (p : ScratchPair) : Nat := p.sum / p.count

/-- The band of a reference (R124). -/
def bandOf (r : Nat) : Nat := r / 4

/-- A VALID cell measured in band (R124). -/
def Cell.adaptInBand (c : Cell) (mean shift : Nat) : Cell :=
  let d : Int := (mean : Int) - c.reference
  { c with
    reference := (clampInt 1 65535 ((c.reference : Int) + d.tdiv (2 ^ shift : Nat))).toNat
    count := min 255 (c.count + 1)
    strikes := 0 }

/-- A VALID cell measured out of band: a strike, or re-anchored at the third (R125). -/
def Cell.adaptOutOfBand (c : Cell) (mean : Nat) : Cell :=
  if 3 ≤ c.strikes + 1 then { c with reference := mean, count := 1, strikes := 0 }
  else { c with strikes := c.strikes + 1 }

/-- Whether a mean lies in the band of a cell's reference (R124). -/
def Cell.inBand (c : Cell) (mean : Nat) : Bool :=
  decide (((mean : Int) - c.reference).natAbs ≤ bandOf c.reference)

/-- One cell adapted from its scratch pair (R122 to R125). -/
def Cell.adapt (c : Cell) (p : ScratchPair) (shift : Nat) : Cell :=
  if p.count = 0 then c
  else match c.state with
    | .empty => ⟨.valid, p.mean, 1, 0⟩
    | .valid => if c.inBand p.mean then c.adaptInBand p.mean shift else c.adaptOutOfBand p.mean

/-- The cells after the adaptation of all 64 (R122). -/
def adaptCells (cells : Vector Cell 64) (scratch : Vector ScratchPair 64) (shift : Nat) : Vector Cell 64 :=
  Vector.ofFn (fun k => cells[k].adapt scratch[k] shift)

/-- Whether a cell is first filled by its pair (R123). -/
def firstFilledAt (cells : Vector Cell 64) (scratch : Vector ScratchPair 64) (k : Fin 64) : Bool :=
  decide (scratch[k].count ≠ 0) && decide (cells[k].state = .empty)

/-- The distance of two cell numbers. -/
def cellDistance (i j : Fin 64) : Nat := (i.val - j.val) + (j.val - i.val)

/-- The source of a gap: the nearest of the first filled cells, the higher of two equally near (R130). -/
def nearestCell (k : Fin 64) : List (Fin 64) → Option (Fin 64)
  | [] => none
  | j :: js =>
    match nearestCell k js with
    | none => some j
    | some b =>
      if cellDistance k j < cellDistance k b then some j
      else if cellDistance k j = cellDistance k b ∧ b.val < j.val then some j
      else some b

/-- Whether a cell is filled by the gap completion, and from which cell (R130). -/
def gapSource (cells after : Vector Cell 64) (scratch : Vector ScratchPair 64) (l zSeal : Nat) (k : Fin 64) :
    Option (Fin 64) :=
  if cellRequired l zSeal k && decide (after[k].state = .empty) then
    nearestCell k (allCells.filter (firstFilledAt cells scratch))
  else none

/-- The cells after the gap completion of a FILL (R130). -/
def fillGaps (cells after : Vector Cell 64) (scratch : Vector ScratchPair 64) (l zSeal : Nat) : Vector Cell 64 :=
  Vector.ofFn (fun k =>
    match gapSource cells after scratch l zSeal k with
    | some j => ⟨.valid, after[j].reference, 1, 0⟩
    | none => after[k])

/-- How many cells meet a test. -/
def countCells (f : Fin 64 → Bool) : Nat := (allCells.filter f).length

/-- The summary of an adapted completion (R126). -/
def adaptSummary (cells after done : Vector Cell 64) (scratch : Vector ScratchPair 64) : AdaptSummary :=
  let measured := fun k : Fin 64 => decide (scratch[k].count ≠ 0) && decide (cells[k].state = .valid)
  let inside := fun k : Fin 64 => cells[k].inBand scratch[k].mean
  let third := fun k : Fin 64 => decide (3 ≤ cells[k].strikes + 1)
  { outcome := .adapted
    firstFilled := countCells (firstFilledAt cells scratch)
    inBand := countCells (fun k => measured k && inside k)
    struck := countCells (fun k => measured k && !inside k && !third k)
    reanchored := countCells (fun k => measured k && !inside k && third k)
    gapFilled := countCells (fun k => decide (done[k].state = .valid) && decide (after[k].state = .empty)) }

/-- How the store judges a closed-end completion (R120, table): position UNKNOWN, then DRIFT, then taint outside FILL. -/
def judgeAdaptation (unknown drift taint filling : Bool) : AdaptOutcome :=
  if unknown then .barredPosition
  else if drift then .barredDrift
  else if taint && !filling then .barredTaint
  else .adapted

/-- A closed-end completion handed to the store (R120): the profile adapted or barred, the summary set, the scratch discarded. -/
def Chan.adapt (k : Chan) (unknown drift filling : Bool) : Chan :=
  let cells := k.rps.cells
  let scratch := k.rps.scratch
  match judgeAdaptation unknown drift k.ms.taint filling with
  | .adapted =>
    let after := adaptCells cells scratch (k.ms.active.get .adaptShift)
    let done := if filling then
        fillGaps cells after scratch (k.ms.active.get .travelLength) (k.ms.active.get .zSeal)
      else after
    { k with rps := { cells := done, scratch := clearScratch, summary := adaptSummary cells after done scratch } }
  | barred => { k with rps := { k.rps with scratch := clearScratch, summary := ⟨barred, 0, 0, 0, 0, 0⟩ } }

end Sys2Proof.Machine
end

