-- ==== Sys2Proof/Machine/Stops.lean ====
section
/-! DEFINITION. What the Motion Sequencer does at the ends of a drive: closed end, end of SEEK, stall, pinch, loss of
position (08). -/

namespace Sys2Proof.Machine

/-- Whether the channel's motion is in its FILL phase. -/
def Chan.filling (k : Chan) : Bool := k.ms.motion.any Motion.filling

/-- The magnitude of the counter is beyond the End tolerance (R151). -/
def Chan.drifted (k : Chan) : Bool := decide (k.ms.active.get .endTolerance < k.pd.position.natAbs)

/-- The counters of a COMPLETED_CLOSED (R36, R151): a travel counted, reversal counter and override flag cleared. -/
def Chan.countClose (k : Chan) : Chan :=
  { k with
    pd := { k.pd with travel := min 65535 (k.pd.travel + 1) }
    ms := { k.ms with reversal := 0, override := false } }

/-- A closed end with result COMPLETED_CLOSED, after the position has been dealt with (R151). -/
def Chan.completeClosed (k : Chan) (unknown drift : Bool) : Chan :=
  (k.countClose.adapt unknown drift k.filling).enterDwell (.idle .completedClosed)

/-- A closed-end completion (R151, table). -/
def State.closedEnd (s : State) (c : ChanId) : State :=
  let k := s.ch c
  if k.ms.active.on .endMode then s.modCh c (fun k => k.completeClosed false false)
  else if !k.pd.known then s.modCh c (fun k => (k.setPosition 0).completeClosed true false)
  else if !k.drifted then s.modCh c (fun k => (k.setPosition 0).completeClosed false false)
  else if k.masked .drift then s.modCh c (fun k => ((k.raise .drift).setPosition 0).completeClosed false true)
  else
    ((s.modCh c (fun k => (k.raise .drift).losePosition.adapt false true k.filling)).takeRecordHere c
      (.condition .drift)).modCh c (fun k => k.enterDwell (.fault .drift))

/-- The motion record replaced by a motion. -/
def Chan.setMotion (k : Chan) (m : Motion) : Chan := { k with ms := { k.ms with motion := some m } }

/-- The end of SEEK (R159): position 0 and KNOWN, reversal counter 0, the profile emptied, the phase OPEN. -/
def Chan.endOfSeek (k : Chan) : Chan :=
  let k1 := (k.enterDwell .startup).setPosition 0
  let k2 := { k1 with ms := { k1.ms with reversal := 0, override := false } }
  k2.emptyProfile.setMotion (.normalize .openUp)

/-- A pinch response (R153): brake, count, marker, back-off target, record. -/
def State.pinchResponse (s : State) (c : ChanId) (cause : IncidentCause) (p : Int) : State :=
  let n := min 7 ((s.ch c).ms.reversal + 1)
  let counted := fun k : Chan =>
    { k with ms := { k.ms with
        reversal := n
        override := k.ms.override || decide (k.ms.active.get .reversalLimit ≤ n)
        marker := true
        backoff := some ⟨min (k.ms.active.get .travelLength : Int) (p + k.ms.active.get .backoffDistance), none⟩ } }
  ((s.modCh c counted).takeRecord c cause p true).modCh c (fun k => k.enterDwell .backoff)

/-- An override stop (R155). -/
def State.overrideStop (s : State) (c : ChanId) : State :=
  (s.takeRecordHere c .overrideStop).dwellIdle c .overrideStop

/-- A pinch taken: a pinch response, or an override stop where the override flag is set (R153, R155). -/
def State.pinch (s : State) (c : ChanId) (cause : IncidentCause) (p : Int) : State :=
  if (s.ch c).ms.override then s.overrideStop c else s.pinchResponse c cause p

/-- A stall of a channel in TRAVEL that closes outside SEEK (R150). -/
def State.closingStall (s : State) (c : ChanId) : State :=
  let k := s.ch c
  if k.pd.known && decide (zoneAt k.ms.active k.pd.position ≠ .seal) then
    s.pinch c .pinchStall k.pd.position
  else if k.ms.active.on .endMode then s.dwellIdle c .blocked
  else s.closedEnd c

/-- A stall handed to the Motion Sequencer (R150); it is dropped when the channel no longer drives (R31). -/
def State.stall (s : State) (c : ChanId) : State :=
  let k := s.ch c
  match k.ms.state, k.ms.motion with
  | .startup, some m => if m.seeking then s.modCh c Chan.endOfSeek else s.dwellIdle c .blocked
  | .travel, some m =>
    if m.seeking then s.modCh c Chan.endOfSeek
    else if m.dir = .closing then s.closingStall c
    else s.dwellIdle c .blocked
  | .backoff, _ => s.dwellIdle c .backoffStalled
  | _, _ => s

/-- A loss of position reported for a QUEUED closing EXPRESS or GOTO ends it (R157, R170). -/
def State.losePositionQueued (s : State) (c : ChanId) : State :=
  let k := s.ch c
  if k.ms.state = .queued ∧ k.ms.motion.any Motion.unattendedClose then s.endIdle c .positionLost else s

/-! ## Ends of travel at a count (R149) -/

/-- What a count can bring a travel to (R149). -/
inductive TravelEnd where
  | closedEnd
  | idle (r : MotionResult)
  | openDone
deriving DecidableEq, Repr

/-- Whether a KNOWN position meets a target in a direction (R142, R149). -/
def Decoder.meets (d : Decoder) (dir : Dir) (target : Int) : Bool :=
  d.known && match dir with
    | .closing => decide (d.position ≤ target)
    | .opening => decide (target ≤ d.position)

/-- The end of travel a count brings, the upper row of R149's table first. -/
def Chan.travelEnd (k : Chan) (m : Motion) : Option TravelEnd :=
  let l : Int := k.ms.active.get .travelLength
  if !k.pd.known then none
  else if m.dir = .closing ∧ k.ms.active.on .endMode ∧ !m.seeking ∧ k.pd.meets .closing (k.ms.active.get .softClose) then
    some .closedEnd
  else match m with
    | .goTo d target => if k.pd.meets d target then some (.idle .targetReached) else none
    | .express .opening | .jog .opening => if k.pd.meets .opening l then some (.idle .completedOpen) else none
    | .normalize .openUp => if k.pd.meets .opening l then some .openDone else none
    | _ => none

/-- An end of travel is taken (R149). -/
def State.takeEnd (s : State) (c : ChanId) : TravelEnd → State
  | .closedEnd => s.closedEnd c
  | .idle r => s.dwellIdle c r
  | .openDone => s.modCh c (fun k => (k.enterDwell .startup).setMotion (.normalize .fill))

end Sys2Proof.Machine
end

