-- ==== Sys2Proof/Machine/Counting.lean ====
section
/-! DEFINITION. The Position Decoder's events (02): the glitch filter, counts, illegal transitions, the interval timer's
overflow and the stall watchdog; and the Motion Sequencer's handling of count reports (R148, R149, R157). -/

namespace Sys2Proof.Machine

/-! ## The glitch filter (R19) -/

/-- Whether a phase changes: at least three of its four samples show the opposite level (R19). -/
def phaseChanges (hist : List Bool) (level : Bool) : Bool := decide (3 ≤ (hist.filter (· != level)).length)

/-- Phase A accepted at the opposite level. A change reported from outside brings its samples and level along (log 3). -/
def Decoder.flipA (d : Decoder) : Decoder :=
  let level := !d.filtA
  if phaseChanges d.histA d.filtA then { d with filtA := level }
  else { d with filtA := level, histA := List.replicate 4 level, pinA := level }

/-- Phase B accepted at the opposite level (as `flipA`). -/
def Decoder.flipB (d : Decoder) : Decoder :=
  let level := !d.filtB
  if phaseChanges d.histB d.filtB then { d with filtB := level }
  else { d with filtB := level, histB := List.replicate 4 level, pinB := level }

/-- A phase accepted at the opposite level. -/
def Decoder.flip (d : Decoder) : HallPhase → Decoder
  | .a => d.flipA
  | .b => d.flipB

/-- Whether the change of one phase steps forward along (low, low), (high, low), (high, high), (low, high) (R21). -/
def Decoder.forward (d : Decoder) : HallPhase → Bool
  | .a => d.filtA == d.filtB
  | .b => d.filtA != d.filtB

/-- The direction of the count a change of one phase makes (R21). -/
def Chan.countDir (k : Chan) (ph : HallPhase) : Dir :=
  if k.pd.forward ph != k.ms.active.on .phaseOrder then .closing else .opening

/-! ## A count at the decoder (R34) -/

/-- The step of a count in the position counter (R21). -/
def Dir.delta : Dir → Int
  | .closing => -1
  | .opening => 1

/-- Step 1: the position counter, which loses a KNOWN position at its bounds (R23). -/
def Decoder.countPosition (d : Decoder) (l : Nat) (dir : Dir) : Decoder :=
  let p := d.position + dir.delta
  if d.known then
    if -64 ≤ p ∧ p ≤ (l : Int) + 64 then { d with position := p } else { d with known := false }
  else { d with position := clampInt (-64) ((l : Int) + 64) p }

/-- The interval of a count and whether it is overflowed (R27). -/
def Decoder.interval (d : Decoder) : Nat × Bool :=
  if d.overflow = 0 then (max 1 d.timer, false) else (65535, true)

/-- The interval timer and its overflow count set to 0 (R22, R27). -/
def Decoder.restartTimer (d : Decoder) : Decoder := { d with timer := 0, prescaler := 0, overflow := 0 }

/-- Step 3: the interval ring (R28). -/
def Decoder.countRing (d : Decoder) (commanded : Option Dir) (dir : Dir) (interval : Nat) : Decoder :=
  match commanded with
  | none => { d with ring := pushLast 4 d.ring interval }
  | some cd => { d with ring := if cd = dir then pushLast 4 d.ring interval else [] }

/-- Steps 4 and 5: confirmation progress (R33) and the stall watchdog (R31). -/
def Decoder.countDrive (d : Decoder) (commanded : Option Dir) (dir : Dir) (stallMs : Nat) : Decoder :=
  match commanded with
  | none => d
  | some cd =>
    if cd = dir then { d with confirm := min 2 (d.confirm + 1), watchdog := some (stallMs * 1000) }
    else { d with confirm := if d.confirm = 2 then 2 else 0 }

/-- Step 6: the difference counter (R35). -/
def Decoder.countDifference (d : Decoder) (dir : Dir) : Decoder :=
  { d with difference := clampInt (-32767) 32767 (d.difference + dir.delta) }

/-- The decoder's own update at a count, in the order of R34. -/
def Chan.decodeCount (k : Chan) (ph : HallPhase) : Chan :=
  let dir := k.countDir ph
  let iv := k.pd.interval
  let d1 := (k.pd.flip ph).countPosition (k.ms.active.get .travelLength) dir
  let d2 := d1.restartTimer.countRing k.commanded dir iv.1
  let d3 := (d2.countDrive k.commanded dir (k.ms.active.get .stallTimeout)).countDifference dir
  let k1 := { k with pd := d3 }
  if iv.2 && k.ms.state.driving then k1.raise .periodOverflow else k1

/-- Whether the count asks for a condition stop: an unmasked PERIOD_OVERFLOW of a driving channel (R27). -/
def Chan.overflowStop (k : Chan) : Bool :=
  k.pd.interval.2 && k.ms.state.driving && !k.masked .periodOverflow

/-- Whether the count hands the EE an evaluation request: R29's list, on the channel after the decoder's update. -/
def Chan.wantsEvaluation (k : Chan) (dir : Dir) : Bool :=
  (k.ms.state == .startup || k.ms.state == .travel) && k.commanded == some .closing && dir == .closing &&
    k.pd.known && k.pd.ring.length == 4 && !k.ms.motion.any Motion.seeking

/-- The evaluation request of a count (R29, R69). -/
def Chan.evalRequest (k : Chan) (c : ChanId) (overflowed : Bool) : EvalRequest :=
  { chan := c
    drive := k.pd.drive
    inTravel := k.ms.state == .travel
    position := k.pd.position
    period := k.pd.ring.foldl (· + ·) 0
    overflowed := overflowed }

/-! ## The count report at the Motion Sequencer -/

/-- Blanking and the entry into TRAVEL (R148). -/
def Chan.countBlanking (k : Chan) : Chan :=
  let k1 := { k with ms := { k.ms with blanking := min 64 (k.ms.blanking + 1) } }
  if k1.ms.state = .startup ∧ k1.pd.confirm = 2 ∧ k1.ms.active.get .startupBlanking ≤ k1.ms.blanking then k1.enterTravel
  else k1

/-- The end of travel of a count in the commanded direction, with the motion record present. -/
def State.endAtCount (s : State) (c : ChanId) : Option TravelEnd :=
  (s.ch c).ms.motion.bind (fun m => (s.ch c).travelEnd m)

/-- A count report that stops nothing: blanking, TRAVEL, ends of travel (R148, R149, log 11). -/
def State.progress (s : State) (c : ChanId) (commanded : Bool) : State :=
  if commanded then
    let s1 := s.modCh c Chan.countBlanking
    match s1.endAtCount c with
    | some e => s1.takeEnd c e
    | none => s1
  else s

/-- A count report of a channel in STARTUP or TRAVEL. A loss of position stops a closing EXPRESS or GOTO naming DRIFT (R157);
an unmasked PERIOD_OVERFLOW stops the channel (R27); of two things one report names, the order is open (log 10). A report
that stops a channel in STARTUP makes no entry into TRAVEL first: its window stays filled (log 36). -/
def State.runningReport (s : State) (c : ChanId) (commanded lost overflow : Bool) : State :=
  let lostStop := lost && (s.ch c).ms.motion.any Motion.unattendedClose
  let s1 := if lostStop then s.modCh c (·.raise .drift) else s
  match lostStop, overflow with
  | false, false => s1.progress c commanded
  | true, false => s1.conditionStop c .drift
  | true, true =>
    s1.countRace.conditionStop c (if Config.raceFirst s.races then .drift else .periodOverflow)
  | false, true =>
    if commanded && (s1.endAtCount c).isSome then
      if Config.raceFirst s.races then s1.countRace.conditionStop c .periodOverflow
      else s1.countRace.progress c commanded
    else s1.conditionStop c .periodOverflow

/-- Whether a back-off has met its target (R154). -/
def Chan.backoffMet (k : Chan) : Bool := k.ms.backoff.any (fun b => k.pd.meets .opening b.target)

/-- A count report of a channel in BACKOFF (R154). -/
def State.backoffReport (s : State) (c : ChanId) (overflow : Bool) : State :=
  match (s.ch c).backoffMet, overflow with
  | false, false => s
  | true, false => s.dwellIdle c .reversed
  | false, true => s.conditionStop c .periodOverflow
  | true, true =>
    if Config.raceFirst s.races then s.countRace.conditionStop c .periodOverflow
    else s.countRace.dwellIdle c .reversed

/-- A count report at the Motion Sequencer, by the channel's state (R34). -/
def State.countReport (s : State) (c : ChanId) (commanded lost overflow : Bool) : State :=
  match (s.ch c).ms.state with
  | .startup | .travel => s.runningReport c commanded lost overflow
  | .backoff => s.backoffReport c overflow
  | .queued => if lost then s.losePositionQueued c else s
  | .disabled | .idle | .dwell | .fault => s

/-- A count (R34): the decoder's update, the evaluation request, the count report. -/
def State.count (s : State) (c : ChanId) (ph : HallPhase) : State :=
  let k := s.ch c
  let dir := k.countDir ph
  let k1 := k.decodeCount ph
  let s1 := s.setCh c k1
  let s2 := if k1.wantsEvaluation dir then
      { s1 with effort := { s1.effort with requests := s1.effort.requests ++ [k1.evalRequest c k.pd.interval.2] } }
    else s1
  s2.countReport c (k.commanded == some dir) (k.pd.known && !k1.pd.known) k.overflowStop

/-! ## Illegal transitions (R22) -/

/-- The decoder's and the flags' part of an illegal transition (R22). -/
def Chan.illegal (k : Chan) : Chan :=
  let d := (k.pd.flipA.flipB).restartTimer
  let k1 := { k with pd := { d with ring := [], confirm := if d.confirm = 2 then 2 else 0 } }.raise .glitch
  if k.inClosingMotion then k1.setTaint else k1

/-- An illegal transition (R22, R157): with GLITCH unmasked the position is lost and a driving channel stopped. -/
def State.illegalTransition (s : State) (c : ChanId) : State :=
  let k := s.ch c
  let s1 := s.modCh c Chan.illegal
  if k.masked .glitch then s1
  else
    let s2 := s1.modCh c Chan.losePosition
    if k.ms.state.driving then s2.conditionStop c .glitch
    else if k.pd.known then s2.losePositionQueued c
    else s2

/-! ## Interval timer and watchdog (R26, R31, R32) -/

/-- The stall watchdog stopped (R31). -/
def Chan.stopWatchdog (k : Chan) : Chan := { k with pd := { k.pd with watchdog := none } }

/-- The interval timer passes 65535 (R26); the second time a driving channel stalls (R32). -/
def State.intervalOverflow (s : State) (c : ChanId) : State :=
  let k := s.ch c
  if 2 ≤ k.pd.overflow then s
  else
    let s1 := s.modCh c (fun k => { k with pd := { k.pd with timer := 0, prescaler := 0, overflow := k.pd.overflow + 1 } })
    if k.pd.overflow = 1 ∧ k.ms.state.driving then (s1.modCh c Chan.stopWatchdog).stall c else s1

/-- The stall watchdog expires (R31): the stall of a driving channel; it is dropped when no watchdog runs. -/
def State.watchdogExpiry (s : State) (c : ChanId) : State :=
  if (s.ch c).pd.watchdog.isSome then (s.modCh c Chan.stopWatchdog).stall c else s

end Sys2Proof.Machine
end

