-- ==== Sys2Proof/Machine/Effort.lean ====
section
/-! DEFINITION. The Effort Evaluator (05, 06): the stages of an evaluation, the excess window, the decision, the
common-mode lanes and hold, and the verdict's action. -/

namespace Sys2Proof.Machine

/-! ## Stages 1 to 4 (R70 to R82) -/

/-- The inputs of an evaluation, read once (R70). -/
structure EvalInput where
  period : Nat
  overflowed : Bool
  u : Nat
  duty : Nat
  gain : Nat
  filling : Bool
  active : ParamSet
  cell : Cell
deriving DecidableEq, Repr

/-- How an evaluation ends (R71). -/
inductive Ending where
  | stopped (c : Condition)
  | diverted
  | complete (x : Int) (tag : SlotTag)
deriving DecidableEq, Repr

/-- The outcome of stages 1 to 4: the conditions they raised, the Pn added to the scratch if stage 4 was reached, the ending. -/
structure EvalOutcome where
  raised : List Condition
  pn : Option Nat
  ending : Ending
deriving DecidableEq, Repr

/-- Whether a condition is masked in an evaluation; NO_REFERENCE always is in FILL (R80, R86). -/
def EvalInput.masked (i : EvalInput) (c : Condition) : Bool :=
  i.active.on c.mask || (i.filling && c == .noReference)

/-- A condition met at a stage: raised, and the evaluation stopped when it is unmasked (R71). -/
def EvalInput.meet (i : EvalInput) (c : Condition) (raised : List Condition) (pn : Option Nat)
    (go : List Condition → EvalOutcome) : EvalOutcome :=
  if i.masked c then go (raised ++ [c]) else ⟨raised ++ [c], pn, .stopped c⟩

/-- The effort excess before it is held (R81). -/
def rawExcess (pn reference gain : Nat) : Int := (((pn : Int) - reference) * gain).tdiv 256

/-- Stage 4 with the measured Pn (R80 to R82). -/
def EvalInput.stage4 (i : EvalInput) (pn : Nat) (raised : List Condition) : EvalOutcome :=
  match i.cell.state with
  | .empty => i.meet .noReference raised (some pn) (fun r => ⟨r, some pn, .complete 0 .neutral⟩)
  | .valid =>
    let x := rawExcess pn i.cell.reference i.gain
    if -2048 ≤ x ∧ x ≤ 2047 then ⟨raised, some pn, .complete x .valid⟩
    else i.meet .effortSat raised (some pn) (fun r => ⟨r, some pn, .complete (clampInt (-2048) 2047 x) .valid⟩)

/-- The effective drive voltage (R74). -/
def effectiveVoltage (u duty : Nat) : Nat := u * duty / 1024

/-- The normalized period before it is held (R75). -/
def rawNormalized (period ue : Nat) : Nat := (period * ue + 6750) / 13500

/-- Stage 3 (R75, R76). -/
def EvalInput.stage3 (i : EvalInput) (ue : Nat) (raised : List Condition) : EvalOutcome :=
  let pn := rawNormalized i.period ue
  if 65535 < pn then i.meet .periodOverflow raised none (i.stage4 65535)
  else i.stage4 (max 1 pn) raised

/-- Stage 2 (R74): a masked LOW_DRIVE diverts the evaluation. -/
def EvalInput.stage2 (i : EvalInput) (u : Nat) (raised : List Condition) : EvalOutcome :=
  let ue := effectiveVoltage u i.duty
  if ue < 3000 then i.meet .lowDrive raised none (fun r => ⟨r, none, .diverted⟩)
  else i.stage3 ue raised

/-- Stage 1 (R73). -/
def EvalInput.stage1 (i : EvalInput) (raised : List Condition) : EvalOutcome :=
  if 6000 ≤ i.u ∧ i.u ≤ 18000 then i.stage2 i.u raised
  else i.meet .supplyRange raised none (i.stage2 (clampNat 6000 18000 i.u))

/-- The interval check and stages 1 to 4 (R71). The check raises nothing itself: the decoder has raised the PERIOD_OVERFLOW of
an overflowed interval at its count (R27, R72). -/
def EvalInput.run (i : EvalInput) : EvalOutcome :=
  if i.overflowed && !i.masked .periodOverflow then ⟨[], none, .stopped .periodOverflow⟩ else i.stage1 []

/-- A measurement added to a scratch pair (R78). -/
def ScratchPair.add (p : ScratchPair) (pn : Nat) : ScratchPair :=
  if p.count < 4095 then ⟨p.sum + pn, p.count + 1⟩ else p

/-! ## The window (R95 to R97) -/

/-- A slot written at the advanced top pointer (R95). -/
def Excess.writeSlot (e : Excess) (sl : Slot) : Excess :=
  { e with top := e.top + 1, slots := e.slots.set (e.top + 1).val sl (e.top + 1).isLt }

/-- Whether no slot is EMPTY (R97). -/
def Excess.full (e : Excess) : Bool := e.newestFirst.all (fun sl => sl.tag != .empty)

/-- The window sum W over the slots that are not EMPTY (R97). -/
def Excess.windowSum (e : Excess) : Int :=
  (e.newestFirst.map (fun sl => if sl.tag = .empty then 0 else sl.value)).foldl (· + ·) 0

/-- The window average A = floor(W / 8), formed only when the window is full (R97). -/
def Excess.average (e : Excess) : Option Int := if e.full then some (e.windowSum.fdiv 8) else none

/-- A decision added to the history as the newest entry (R103). -/
def Excess.shiftHistory (e : Excess) (b : Bool) : Excess := { e with history := (b :: e.history).take 8 }

/-- Whether the newest K entries hold at least M entries of 1 (R104). -/
def Excess.persistent (e : Excess) (k m : Nat) : Bool :=
  decide (m ≤ ((e.history.take k).filter (· == true)).length)

/-! ## Thresholds (R101) -/

/-- The zone threshold (R101). -/
def zoneThreshold (ps : ParamSet) : Zone → Nat
  | .upper => ps.get .tUpper
  | _ => ps.get .tPinch

/-- The sum of the threshold's terms, without or with the common-mode term (R101). -/
def thresholdSum (ps : ParamSet) (z : Zone) (road : Nat) (override hold : Bool) : Nat :=
  zoneThreshold ps z + road * ps.get .tRoad + (if override then ps.get .tOvr else 0) +
    (if hold then ps.get .tCm else 0)

/-- T_eff: the sum held to 0 to 2047 (R101). -/
def threshold (ps : ParamSet) (z : Zone) (road : Nat) (override hold : Bool) : Nat :=
  min 2047 (thresholdSum ps z road override hold)

/-! ## Common mode (R106, R107) -/

/-- Whether a mark is younger than the Common-mode window (R106). -/
def youngMark (now mark : Millis) (window : Nat) : Bool := decide ((now - mark).toNat < window)

/-- Whether another channel's lane counts: a young mark of a channel in TRAVEL (R107). -/
def State.laneCounts (s : State) (c d : ChanId) : Bool :=
  d != c && (s.ch d).ms.state == .travel &&
    (s.ch d).ee.lane.any (fun m => youngMark s.clock.ms m s.device.cmWindow)

/-- The channel's lane written and the hold judged (R107). -/
def State.writeLane (s : State) (c : ChanId) : State :=
  let s1 := s.modCh c (fun k => { k with ee := { k.ee with lane := some s.clock.ms } })
  if 2 ≤ (allChans.filter (s.laneCounts c)).length then
    { s1 with effort := { s1.effort with hold := some (s.clock.ms + BitVec.ofNat 32 s.device.holdTime) } }
  else s1

/-! ## The decision (R98 to R104) -/

/-- The verdicts of an evaluation that is not stopped (R84). -/
inductive Verdict where
  | clear
  | pinch (cause : IncidentCause)
deriving DecidableEq, Repr

/-- The T_eff recorded where the decision ends early: the terms as they stand, the lanes not examined (R99, R100). -/
def State.standingThreshold (s : State) (c : ChanId) (z : Zone) : Nat :=
  threshold (s.ch c).ms.active z s.effort.road (s.ch c).ms.override s.effort.hold.isSome

/-- R102 to R104: the lane check, the entry b, the history and the persistence rule. -/
def State.decide102 (s : State) (c : ChanId) (z : Zone) (a : Int) : Verdict × Nat × State :=
  let k := s.ch c
  let ps := k.ms.active
  let t0 := threshold ps z s.effort.road k.ms.override false
  let s1 := if (t0 : Int) < a then s.writeLane c else s
  let teff := threshold ps z s.effort.road k.ms.override s1.effort.hold.isSome
  let s2 := s1.modCh c (fun k => { k with ee := k.ee.shiftHistory (decide ((teff : Int) < a)) })
  let pinched := (s2.ch c).ee.persistent (ps.get .persistenceDepth) (ps.get .persistenceCount)
  (if pinched then .pinch .pinchEffort else .clear, teff, s2)

/-- Stage 6 for an evaluation stamped TRAVEL, after its window write (R98 to R104): verdict, T_eff recorded, state. -/
def State.stage6 (s : State) (c : ChanId) (p : Int) (ending : Ending) : Verdict × Option Nat × State :=
  let k := s.ch c
  let z := zoneAt k.ms.active p
  let standing := some (s.standingThreshold c z)
  if z = .seal then (.clear, none, s)
  else
    match ending, k.ee.average with
    | .complete x .valid, avg =>
      if (k.ms.active.get .tHard : Int) < x then (.pinch .pinchHard, standing, s)
      else match avg with
        | none => (.clear, none, s)
        | some a => let r := s.decide102 c z a; (r.1, some r.2.1, r.2.2)
    | .complete _ _, some a => let r := s.decide102 c z a; (r.1, some r.2.1, r.2.2)
    | _, none => (.clear, none, s)
    | _, some _ => (.clear, standing, s)

/-! ## One evaluation -/

/-- The slot an ending hands to stage 5 (R83). -/
def Ending.slot : Ending → Slot
  | .complete x tag => ⟨x, tag⟩
  | _ => ⟨0, .neutral⟩

/-- The flags an evaluation leaves (R87, R88, R92): the sticky flags of the conditions its stages raised, and the last-step
flag and taint by those and by an overflowed interval, which counts for these two alone (R72). -/
def Chan.noteConditions (k : Chan) (overflowed : Bool) (raised : List Condition) : Chan :=
  let k1 := raised.foldl Chan.raise k
  let unclean := overflowed || !raised.isEmpty
  { k1 with
    ee := { k1.ee with lastStep := unclean }
    ms := { k1.ms with taint := k1.ms.taint || unclean } }

/-- The measurement of stage 4 added to the scratch pair of its cell (R78). -/
def Chan.addMeasurement (k : Chan) (cell : Fin 64) : Option Nat → Chan
  | some pn => { k with rps := { k.rps with scratch := k.rps.scratch.set cell (k.rps.scratch[cell].add pn) } }
  | none => k

/-- The taint of a road level of 3 or more, and of an active hold in TRAVEL (R108, R112). -/
def State.taintByRoad (s : State) (c : ChanId) (inTravel : Bool) : State :=
  if 3 ≤ s.effort.road || (inTravel && s.effort.hold.isSome) then s.modCh c Chan.setTaint else s

/-- The summary set by an evaluation that reached the window (R105). -/
def Chan.setSummary (k : Chan) (sl : Slot) (cell : Fin 64) (a : Option Int) (teff : Option Nat) : Chan :=
  { k with ee := { k.ee with summary := ⟨some (sl.value, sl.tag), some cell, a, teff⟩ } }

/-- Stages 5 and 6 of an evaluation that ended complete or diverted (R83, R95, R96, R98, R105). -/
def State.judge (s : State) (c : ChanId) (q : EvalRequest) (cell : Fin 64) (ending : Ending) : Verdict × State :=
  let sl := ending.slot
  if q.inTravel then
    let s1 := s.modCh c (fun k => { k with ee := k.ee.writeSlot sl })
    let r := s1.stage6 c q.position ending
    let s2 := (r.2.2.modCh c (fun k => k.setSummary sl cell (s1.ch c).ee.average r.2.1)).taintByRoad c true
    (r.1, s2)
  else
    let s1 := if (s.ch c).ms.state = .startup then s.modCh c (fun k => { k with ee := k.ee.writeSlot sl }) else s
    (.clear, (s1.modCh c (fun k => k.setSummary sl cell k.ee.average none)).taintByRoad c false)

/-- The inputs of an evaluation of a request (R70). -/
def State.evalInput (s : State) (c : ChanId) (q : EvalRequest) (cell : Fin 64) : EvalInput :=
  let k := s.ch c
  { period := q.period
    overflowed := q.overflowed
    u := s.supply.u
    duty := k.out.applied
    gain := k.ms.active.get .closingGain
    filling := k.filling
    active := k.ms.active
    cell := k.rps.cells[cell] }

/-- An evaluation of a request of the drive the channel is still in (R69 to R112), and the action on its verdict (R84). -/
def State.evaluate (s : State) (c : ChanId) (q : EvalRequest) : State :=
  let cell := cellIndex ((s.ch c).ms.active.get .travelLength) q.position
  let o := (s.evalInput c q cell).run
  let s1 := s.modCh c (fun k => (k.noteConditions q.overflowed o.raised).addMeasurement cell o.pn)
  match o.ending with
  | .stopped cond => s1.conditionStop c cond
  | ending =>
    let r := s1.judge c q cell ending
    match r.1 with
    | .clear => r.2
    | .pinch cause => r.2.pinch c cause q.position

/-- The oldest request of a channel. -/
def oldestRequest (c : ChanId) (qs : List EvalRequest) : Option EvalRequest := qs.find? (fun q => q.chan == c)

/-- The requests without the oldest of a channel. -/
def dropRequest (c : ChanId) : List EvalRequest → List EvalRequest
  | [] => []
  | q :: qs => if q.chan = c then qs else q :: dropRequest c qs

/-- Whether the channel is still in the drive a request came from (R69). -/
def Chan.stillIn (k : Chan) (q : EvalRequest) : Bool :=
  k.pd.drive == q.drive &&
    (k.ms.state == .travel || (k.ms.state == .startup && !q.inTravel))

/-- The EE takes the oldest request of a channel (R69): evaluated, or dropped when the channel has left its drive. -/
def State.evaluation (s : State) (c : ChanId) : State :=
  match oldestRequest c s.effort.requests with
  | none => s
  | some q =>
    let s1 := { s with effort := { s.effort with requests := dropRequest c s.effort.requests } }
    if (s.ch c).stillIn q then s1.evaluate c q else s1

end Sys2Proof.Machine
end

