-- ==== Sys2Proof/Machine/Replies.lean ====
section
/-! DEFINITION. The byte layouts of replies and notices (Tables 11-1 to 11-4, section 11.7). -/

namespace Sys2Proof.Machine

/-- The answer of a request: its status, the fields that follow it, and the reset an accepted RESET arranges (R186, R192). -/
structure Answer where
  status : Status
  fields : List Byte
  reset : Option ResetMode
deriving DecidableEq, Repr

/-- An answer that arranges no reset. -/
def answer (st : Status) (fields : List Byte) : Answer := ⟨st, fields, none⟩

/-- The payload of a reply: the status byte first (R186). -/
def Answer.payload (a : Answer) : List Byte := a.status.code :: a.fields

/-- A cell image (section 11.7): reference, count, state code and strikes. -/
def Cell.image (c : Cell) : List Byte :=
  le16 c.reference ++ le16 c.count ++ [byteOf ((match c.state with | .empty => 0 | .valid => 1) + 16 * c.strikes)]

/-- The eight cells of a segment, 8s first. -/
def segmentCells (cells : Vector Cell 64) (s : Fin 8) : List Cell :=
  (List.finRange 8).map (fun i => cells[8 * s.val + i.val])

/-- The presence byte of a summary: X, A, T_eff, k in bits 0 to 3, the tag of X in bits 4 and 5 (Table 11-1); the
others 0 (log 38). -/
def Summary.presence (m : Summary) : Byte :=
  byteOf (bit m.x.isSome + 2 * bit m.a.isSome + 4 * bit m.teff.isSome + 8 * bit m.k.isSome +
    16 * (match m.x with | some v => v.2.code | none => 0))

/-- The fields of a summary after its presence byte: k, X, A, T_eff; an absent field reads 0 (Table 11-1). -/
def Summary.fields (m : Summary) : List Byte :=
  [byteOf ((m.k.map Fin.val).getD 0)] ++ leInt16 ((m.x.map Prod.fst).getD 0) ++ leInt16 (m.a.getD 0) ++
    le16 (m.teff.getD 0)

/-- Eight tags in two bytes, two bits each, newest in bits 0 and 1 of the first (section 11.7). -/
def tagBytes (slots : List Slot) : List Byte :=
  le16 ((slots.reverse).foldl (fun n sl => 4 * n + sl.tag.code) 0)

/-- The history in one byte, newest entry in bit 0 (section 11.7). -/
def historyByte (h : List Bool) : Byte := byteOf (h.reverse.foldl (fun n b => 2 * n + bit b) 0)

/-- The values of eight slots, newest first, two signed bytes each. -/
def slotBytes (slots : List Slot) : List Byte := slots.flatMap (fun sl => leInt16 sl.value)

/-- The line or condition code of a fault cause (CHANNEL_STATUS layout, byte 3). -/
def FaultCause.detail : FaultCause → Byte
  | .none => 0
  | .bridge l => byteOf l.val
  | .condition c => c.code

/-- The code of a fault cause (CHANNEL_STATUS layout, byte 2). -/
def FaultCause.code : FaultCause → Byte
  | .none => 0
  | .bridge _ => 1
  | .condition _ => 2

/-- The CHANNEL_STATUS reply after the status (Table 11-2, section 11.7). Completeness and fill progress are formed with
the pending Z_seal (R119); bits without a name are 0 (log 38). -/
def Chan.statusFields (k : Chan) (c : ChanId) : List Byte :=
  let l := k.ms.active.get .travelLength
  let z := k.ms.pending.get .zSeal
  let a := k.rps.summary
  [byteOf c.val, k.ms.state.code, k.ms.cause.code, k.ms.cause.detail] ++ leInt16 k.pd.position ++
    [byteOf (bit k.pd.known)] ++ leInt16 k.pd.difference ++ le16 k.pd.travel ++ [k.out.mode.code] ++
    le16 k.out.applied ++
    [k.ee.sticky.byte, byteOf (bit k.ee.lastStep + 2 * bit k.ms.taint + 4 * bit k.ms.override), byteOf k.ms.reversal,
      byteOf (bit (profileComplete k.rps.cells l z)), byteOf (fillProgress k.rps.cells l z),
      byteOf (requiredCount l z), a.outcome.code, byteOf a.firstFilled, byteOf a.inBand, byteOf a.struck,
      byteOf a.reanchored, byteOf a.gapFilled]

/-- The READ_WINDOW reply after the status (R114, Table 11-1, log 17). -/
def Chan.windowFields (k : Chan) (c : ChanId) : List Byte :=
  let slots := k.ee.newestFirst
  let full := k.ee.full
  [byteOf c.val, byteOf k.ee.top.val, byteOf (bit full)] ++ leInt16 (if full then k.ee.windowSum else 0) ++
    leInt16 (k.ee.average.getD 0) ++ slotBytes slots ++ tagBytes slots ++
    [historyByte k.ee.history, k.ee.summary.presence] ++ k.ee.summary.fields

/-- The grant queue in eight bytes: bits 0 to 2 channel, bit 7 class, bits 3 to 6 without a name 0 (log 38); bytes beyond the
entries read 0 (section 11.7). -/
def queueBytes (q : List QueueEntry) : List Byte :=
  ((q.map (fun e : QueueEntry => byteOf (e.chan.val + 128 * bit e.held))) ++ List.replicate 8 0).take 8

/-- One bit per fault line, from a weight up (section 11.7). -/
def lineFlags (s : State) (f : FaultLine → Bool) : Nat :=
  allLines.foldl (fun n l => n + bit (f s.lines[l]) * 2 ^ l.val) 0

/-- The DEVICE_STATUS reply after the status (R191, section 11.7); bits without a name are 0 (log 38). -/
def State.deviceFields (s : State) : List Byte :=
  [s.supply.state.code] ++ le16 s.supply.u ++
    [byteOf (bit s.link.locked), byteOf (lineFlags s FaultLine.asserted + 16 * lineFlags s FaultLine.latch),
      byteOf s.device.slotCount, setOfChans s.arbiter.holders, byteOf s.arbiter.queue.length] ++
    queueBytes s.arbiter.queue ++
    [byteOf s.effort.road, byteOf (bit s.effort.staleness.isSome + 2 * bit s.effort.hold.isSome)] ++
    le16 s.effort.speed.toNat ++ [byteOf s.pool.waiting.length, byteOf s.pool.lost] ++
    le16 s.link.lengthErrors ++ le16 s.link.crcErrors ++ le16 s.link.timeouts ++ le16 s.link.overruns ++
    le32 s.clock.ms.toNat

/-- Bytes 16 on of an incident record, by its cause (section 11.7). -/
def Incident.tail (r : Incident) : List Byte :=
  match r.cause with
  | .bridge l => [byteOf l.val]
  | .condition c => [c.code]
  | .pinchEffort | .pinchHard | .pinchStall | .overrideStop =>
    let e := r.evidence.getD ⟨.absent, [], []⟩
    e.summary.presence :: (e.summary.fields ++ slotBytes e.slots ++ tagBytes e.slots ++ [historyByte e.history])

/-- An incident record as it travels (section 11.7); bits without a name are 0 (log 38). -/
def Incident.fields (r : Incident) (ident : RecId) : List Byte :=
  [byteOf ident.val, byteOf r.chan.val, r.cause.code] ++ le32 r.time.toNat ++ leInt16 r.position ++
    [byteOf (bit r.known + 2 * r.zone.code + 8 * bit r.hold), byteOf r.reversal] ++ le16 r.u ++ le16 r.applied ++
    [byteOf r.road] ++ r.tail

/-- The payload of a MOTION_END notice (Table 11-3). -/
def MotionEnd.payload (m : MotionEnd) (c : ChanId) : List Byte :=
  [byteOf c.val, m.result.code] ++ leInt16 m.position ++ [byteOf (bit m.known)]

end Sys2Proof.Machine
end

