-- ==== Sys2Proof/Machine/Transmit.lean ====
section
/-! DEFINITION. The Link Controller's reply queue and transmitter (R186 to R189, R192): dispatch, the choice of the next
frame, and the end of every step. -/

namespace Sys2Proof.Machine

/-- Whether an accepted RESET waits to be taken: its reply stands in the queue (R192). -/
def Link.resetAwaited (l : Link) : Bool := l.replies.any (fun r => r.reset.isSome)

/-- A counter that stops at 65535 (R185, R186). -/
def countUp (n : Nat) : Nat := min 65535 (n + 1)

/-- The dispatch of a request frame of a type with a good CRC (R186): discarded while a reset waits (R192), dropped with an
overrun when four replies wait, otherwise judged by its owner and answered. -/
def State.dispatch (s : State) (type tag : Byte) (owner : State → Answer × State) : State :=
  if s.link.resetAwaited then s
  else if 4 ≤ s.link.replies.length then
    { s with link := { s.link with overruns := countUp s.link.overruns } }
  else
    let r := owner s
    { r.2 with link := { r.2.link with
        replies := r.2.link.replies ++ [⟨type + 0x80, tag, r.1.payload, r.1.reset⟩] } }

/-! ## Notices (R188, R189) -/

/-- The channel of a position below 8. -/
def channelAt (p : Fin 9) : Option ChanId := if h : p.val < 8 then some ⟨p.val, h⟩ else none

/-- The first entry of a position, the lower type value first (R189): its frame, and the set without it. -/
def Notices.takeAt (n : Notices) (p : Fin 9) : Option (List Byte × Notices) :=
  match channelAt p with
  | some c =>
    match n.motionEnd[c], n.incident[c] with
    | some m, _ => some (wireFrame 0x41 0 (m.payload c), { n with motionEnd := n.motionEnd.set c none })
    | none, some r => some (wireFrame 0x42 0 [byteOf c.val, byteOf r.val], { n with incident := n.incident.set c none })
    | none, none => none
  | none =>
    match n.faultLine, n.supply with
    | some (l, level), _ => some (wireFrame 0x43 0 [byteOf l.val, byteOf (bit level)], { n with faultLine := none })
    | none, some (st, u) => some (wireFrame 0x44 0 (st.code :: le16 u), { n with supply := none })
    | none, none => none

/-- The positions in the order of the search, from the one after the last served (R189). -/
def searchOrder (last : Fin 9) : List (Fin 9) :=
  [last + 1, last + 2, last + 3, last + 4, last + 5, last + 6, last + 7, last + 8, last]

/-- The search for the next notice (R189): the position served, its frame, and the set without it. -/
def Notices.search (n : Notices) : List (Fin 9) → Option (Fin 9 × List Byte × Notices)
  | [] => none
  | p :: ps =>
    match n.takeAt p with
    | some r => some (p, r)
    | none => n.search ps

/-- The µs a frame takes on the line (R183). -/
def lineTime (bytes : List Byte) : Nat := bytes.length * 40

/-- A free transmitter takes the oldest reply; with no reply, and no reset awaited, the next notice (R187, R189, R192). -/
def Link.serve (l : Link) : Link :=
  match l.sending, l.replies with
  | some _, _ => l
  | none, r :: _ =>
    let bytes := wireFrame r.type r.tag r.payload
    { l with sending := some ⟨true, bytes, lineTime bytes⟩ }
  | none, [] =>
    match l.notices.search (searchOrder l.lastServed) with
    | some (p, bytes, rest) =>
      { l with sending := some ⟨false, bytes, lineTime bytes⟩, notices := rest, lastServed := p }
    | none => l

/-- The end of every step: a free transmitter starts at once on what has become pending (R187, log 6). -/
def State.serve (s : State) : State := { s with link := s.link.serve }

/-- The outcome of a command whose effect is a state: the part goes on, with its transmitter served. -/
def done (s : State) : Host.Outcome State Fault Refusal := .next s.serve

/-- The outcome of a request command: its dispatch (R186). -/
def request (s : State) (type tag : Byte) (owner : State → Answer × State) : Host.Outcome State Fault Refusal :=
  done (s.dispatch type tag owner)

end Sys2Proof.Machine
end

