-- ==== Sys2Proof/Machine/DriveEvents.lean ====
section
/-! DEFINITION. The events of decoder, evaluator and drive outputs as commands (02, 03, 05, 06). -/

namespace Sys2Proof.Machine

/-- COUNT. -/
def execCount (c : ChanId) (phase : HallPhase) (s : State) : Host.Outcome State Fault Refusal := done (s.count c phase)

/-- ILLEGAL_TRANSITION. -/
def execIllegalTransition (c : ChanId) (s : State) : Host.Outcome State Fault Refusal := done (s.illegalTransition c)

/-- INTERVAL_TIMER_OVERFLOW. -/
def execIntervalTimerOverflow (c : ChanId) (s : State) : Host.Outcome State Fault Refusal := done (s.intervalOverflow c)

/-- STALL_WATCHDOG_EXPIRY. -/
def execStallWatchdogExpiry (c : ChanId) (s : State) : Host.Outcome State Fault Refusal := done (s.watchdogExpiry c)

/-- EVALUATION. -/
def execEvaluation (c : ChanId) (s : State) : Host.Outcome State Fault Refusal := done (s.evaluation c)

/-- The starting value of a channel's ramp (R45). -/
def Chan.rampStart (k : Chan) : Nat := min (k.ms.active.get .startDuty) k.out.target

/-- The ramp value at step i of T (R45). -/
def rampValue (start target i t : Nat) : Nat := start + (target - start) * i / t

/-- A ramp step (R45); no effect when the ramp is idle. -/
def Chan.rampStep (k : Chan) : Chan :=
  match k.out.step with
  | none => k
  | some i =>
    let t := k.ms.active.get .rampTime
    { k with out := { k.out with
        ramp := rampValue k.rampStart k.out.target i t
        step := if i < t then some (i + 1) else none
        stepIn := if i < t then 1000 else 0 } }

/-- RAMP_STEP. -/
def execRampStep (c : ChanId) (s : State) : Host.Outcome State Fault Refusal := done (s.modCh c Chan.rampStep)

/-- A PWM period boundary of a driving channel (R43, R47): the ramp value, held under the ceiling, becomes the applied duty. -/
def Chan.pwmBoundary (k : Chan) (su : Supply) : Chan :=
  if k.out.pwm.isSome then { k with out := { k.out with applied := su.limit k.out.ramp, pwm := some 0 } } else k

/-- PWM_PERIOD_BOUNDARY. -/
def execPwmPeriodBoundary (c : ChanId) (s : State) : Host.Outcome State Fault Refusal :=
  done (s.modCh c (fun k => k.pwmBoundary s.supply))

/-- The common-mode hold reaches its expiry and becomes inactive (R108). -/
def execCommonModeHoldExpiry (s : State) : Host.Outcome State Fault Refusal :=
  done { s with effort := { s.effort with hold := none } }

/-- The road-level staleness timer expires (R111): the road level becomes 0; no effect when it does not run. -/
def State.roadStale (s : State) : State :=
  if s.effort.staleness.isSome then { s with effort := { s.effort with road := 0, staleness := none } } else s

/-- ROAD_LEVEL_STALENESS_EXPIRY. -/
def execRoadLevelStalenessExpiry (s : State) : Host.Outcome State Fault Refusal := done s.roadStale

end Sys2Proof.Machine
end

