-- ==== Sys2Proof/Machine/FaultLines.lean ====
section
/-! DEFINITION. The events of the fault lines (03, section 3.5). -/

namespace Sys2Proof.Machine

/-- A line whose new level is reported from outside brings its samples and level along (log 3). -/
def FaultLine.settle (l : FaultLine) (level : Bool) : FaultLine :=
  if l.hist.all (· == level) then l else { l with hist := List.replicate 4 level, pin := level }

/-- The assertion of a line at INACTIVE (R51, R52); a line already ASSERTED does not assert. -/
def State.lineAsserts (s : State) (l : LineId) : State :=
  if s.lines[l].asserted then s
  else { s with lines := s.lines.set l (s.lines[l].settle true) }.assertLine l

/-- The release of a line at ASSERTED (R53): the level, the notice, the latch judged. -/
def State.lineReleases (s : State) (l : LineId) : State :=
  if s.lines[l].asserted then
    (({ s with lines := s.lines.set l { s.lines[l].settle false with asserted := false } }).postFaultLine l false).judgeLatch l
  else s

/-- The first sample of a line after a reset: history and level from the level at the input, the latch clear (R58). -/
def FaultLine.firstSample (l : FaultLine) : FaultLine :=
  { pin := l.pin, hist := List.replicate 4 l.pin, asserted := l.pin, latch := false }

/-- The first fault line samples after a reset, taken against the channel states the reset has left (R58, log 7), with
the reset itself (log 32). -/
def State.firstLineSamples (s : State) : State :=
  let s1 := { s with lines := s.lines.map FaultLine.firstSample, lineSampleIn := 2 }
  let found := allLines.filter (fun l => s1.lines[l].asserted)
  (s1.openOrder found).foldl State.assertLine s1.countRace

/-- FAULT_LINE_ASSERTION. -/
def execFaultLineAssertion (l : LineId) (s : State) : Host.Outcome State Fault Refusal := done (s.lineAsserts l)

/-- FAULT_LINE_RELEASE. -/
def execFaultLineRelease (l : LineId) (s : State) : Host.Outcome State Fault Refusal := done (s.lineReleases l)

end Sys2Proof.Machine
end

