-- ==== Sys2Proof/Machine/Moving.lean ====
section
/-! DEFINITION. MOVE (R140 to R145, R167, R169), leases (R146), STOP (R147), and the expiries of dwell and back-off (R152, R154). -/

namespace Sys2Proof.Machine

/-! ## MOVE -/

/-- The direction of a code (Table 11-4). -/
def dirOf (b : Byte) : Option Dir :=
  if b = 0 then some .closing else if b = 1 then some .opening else none

/-- What a MOVE asks for: its kind and direction, the target still as it travels. -/
inductive MoveKind where
  | jog | express | goTo | normalize
deriving DecidableEq, Repr

/-- The kind of a code (Table 11-4). -/
def kindOf (b : Byte) : Option MoveKind :=
  if b = 0 then some .jog else if b = 1 then some .express else if b = 2 then some .goTo
  else if b = 3 then some .normalize else none

/-- The motion a MOVE asks of a channel of travel length l; a GOTO target above L is taken as L (R140). -/
def requestedMotion (kind : MoveKind) (d : Dir) (target l : Nat) : Motion :=
  match kind with
  | .jog => .jog d
  | .express => .express d
  | .goTo => .goTo d (min target l)
  | .normalize => .normalize .seek

/-- Whether a motion is a NORMALIZE. -/
def Motion.normalizing : Motion → Bool
  | .normalize _ => true
  | _ => false

/-- The set that judges a MOVE: the pending set in IDLE and QUEUED, the active set once the motion is under way (R4). -/
def Chan.judgingSet (k : Chan) : ParamSet :=
  match k.ms.state with
  | .idle | .queued | .disabled | .fault => k.ms.pending
  | .startup | .travel | .dwell | .backoff => k.ms.active

/-- The successor of a DWELL, if the channel is in one. -/
def Chan.successor (k : Chan) : Option Successor :=
  if k.ms.state = .dwell then k.ms.dwell.map DwellRecord.successor else none

/-- Whether a successor is IDLE. -/
def Successor.isIdle : Successor → Bool
  | .idle _ => true
  | _ => false

/-- Whether a successor is FAULT. -/
def Successor.isFault : Successor → Bool
  | .fault _ => true
  | _ => false

/-- Check 5 of R141. -/
def Chan.moveBusy (k : Chan) (m : Motion) : Bool :=
  k.successor.any Successor.isIdle ||
    (k.ms.motion.any Motion.normalizing && !m.normalizing) ||
    (m.normalizing && (k.ms.state == .startup || k.ms.state == .travel || k.ms.state == .dwell) &&
      k.ms.motion.any (fun r => !r.normalizing))

/-- The checks of R141, in order: the refusal code of a MOVE for a channel, or none when it is accepted. -/
def Chan.judgeMove (k : Chan) (su : SupplyState) (m : Motion) : Option Status :=
  if k.ms.state = .disabled then some .disabled
  else if k.ms.state = .fault || k.successor.any Successor.isFault then some .faulted
  else if su = .cutoff then some .supply
  else if k.ms.marker then some .reversing
  else if k.moveBusy m then some .busy
  else if m.unattendedClose then
    if !k.pd.known then some .positionUnknown
    else if !profileComplete k.rps.cells (k.ms.active.get .travelLength) (k.judgingSet.get .zSeal) then
      some .notNormalized
    else if k.judgingSet.get .reversalLimit ≤ k.ms.reversal then some .reversalLimit
    else none
  else none

/-- Whether a motion is a GOTO already at or beyond its target (R142). -/
def Chan.atTarget (k : Chan) : Motion → Bool
  | .goTo d target => k.pd.meets d target
  | _ => false

/-- The lease timer started, restarted or stopped by the kind of a motion (R143, R146). -/
def Chan.leaseFor (k : Chan) (m : Motion) (ps : ParamSet) : Chan :=
  { k with ms := { k.ms with lease := if m.held then some (ps.get .jogLease * 1000) else none } }

/-- The lease timer restarted (R146). -/
def Chan.renewLease (k : Chan) (ps : ParamSet) : Chan :=
  { k with ms := { k.ms with lease := some (ps.get .jogLease * 1000) } }

/-- A queue entry whose class has changed goes behind every entry of its new class (R169). -/
def requeue (c : ChanId) (held : Bool) (q : List QueueEntry) : List QueueEntry :=
  insertEntry ⟨c, held⟩ (q.filter (·.chan != c))

/-- A MOVE accepted for an IDLE channel (R142). -/
def State.moveIdle (s : State) (c : ChanId) (m : Motion) : State :=
  if (s.ch c).atTarget m then s.postMotionEnd c .targetReached
  else (s.modCh c (fun k => (k.setMotion m).leaseFor m k.ms.pending)).askSlot c m

/-- How an accepted MOVE acts on a waiting motion, queued or the successor of a DWELL (R143, R145). -/
inductive WaitEffect where
  | renew
  | keep
  | replace (m : Motion)
deriving DecidableEq, Repr

/-- The table of R143: the waiting motion against the requested one. -/
def Motion.waitEffect : Motion → Motion → WaitEffect
  | .jog d, .jog e => if d = e then .renew else .replace (.jog e)
  | .normalize _, .normalize _ => .renew
  | .express d, .express e => if d = e then .keep else .replace (.express e)
  | _, m => .replace m

/-- A MOVE accepted for a QUEUED channel (R143, R169). -/
def State.moveQueued (s : State) (c : ChanId) (old m : Motion) : State :=
  match old.waitEffect m with
  | .renew => s.modCh c (fun k => k.renewLease k.ms.pending)
  | .keep => s
  | .replace m =>
    if (s.ch c).atTarget m then s.endIdle c .targetReached
    else
      let s1 := s.modCh c (fun k => (k.setMotion m).leaseFor m k.ms.pending)
      if old.held = m.held then s1
      else { s1 with arbiter := { s1.arbiter with queue := requeue c m.held s1.arbiter.queue } }

/-- The successor of a DWELL changed, its records adjusted; the dwell timer runs on (R146, R147, R152). -/
def Chan.redirectDwell (k : Chan) (r : MotionResult) : Chan :=
  { k with ms := { k.ms with
      dwell := k.ms.dwell.map (fun d => { d with successor := .idle r })
      motion := none, lease := none, backoff := none } }

/-- A MOVE accepted for a channel in DWELL with successor STARTUP (R145, log 14). -/
def State.moveDwell (s : State) (c : ChanId) (old m : Motion) : State :=
  match old.waitEffect m with
  | .renew => s.modCh c (fun k => k.renewLease k.ms.active)
  | .keep => s
  | .replace m =>
    if (s.ch c).atTarget m then s.modCh c (·.redirectDwell .targetReached)
    else s.modCh c (fun k => (k.setMotion m).leaseFor m k.ms.active)

/-- The table of R144: what the running motion becomes; none is a renewal that changes nothing. -/
def Motion.joined : Motion → Motion → Option Motion
  | .jog _, .jog _ => none
  | .jog _, .express d => some (.express d)
  | .goTo _ _, .express d => some (.express d)
  | .jog _, .goTo d t => some (.goTo d t)
  | .express _, .goTo d t => some (.goTo d t)
  | .goTo _ _, .goTo d t => some (.goTo d t)
  | _, _ => none

/-- A MOVE accepted for a channel in STARTUP or TRAVEL (R144, R145). A GOTO target already met ends the travel with
TARGET_REACHED, in End mode SOFT at or below Soft-close too (log 35). -/
def State.moveRunning (s : State) (c : ChanId) (old m : Motion) : State :=
  if old.normalizing then s.modCh c (fun k => k.renewLease k.ms.active)
  else if old.dir = m.dir then
    match old.joined m with
    | some j =>
      let s1 := s.modCh c (fun k => (k.setMotion j).leaseFor j k.ms.active)
      if (s.ch c).atTarget j then s1.dwellIdle c .targetReached else s1
    | none => if old.held then s.modCh c (fun k => k.renewLease k.ms.active) else s
  else s.modCh c (fun k => ((k.enterDwell .startup).setMotion m).leaseFor m k.ms.active)

/-- A MOVE accepted for a channel acts by its state (R142 to R145). -/
def State.acceptMove (s : State) (c : ChanId) (m : Motion) : State :=
  match (s.ch c).ms.state, (s.ch c).ms.motion with
  | .idle, _ => s.moveIdle c m
  | .queued, some old => s.moveQueued c old m
  | .startup, some old => s.moveRunning c old m
  | .travel, some old => s.moveRunning c old m
  | .dwell, some old => s.moveDwell c old m
  | _, _ => s

/-- A MOVE judged and acted on for one channel: the code of its entry and the state left (R140, R141). -/
def State.moveOne (s : State) (c : ChanId) (m : Motion) : Status × State :=
  match (s.ch c).judgeMove s.supply.state m with
  | some st => (st, s)
  | none => (.ok, s.acceptMove c m)

/-- The target a MOVE's entry reports: the target taken for a GOTO, otherwise 0 (R140, Table 11-1). -/
def Motion.reportedTarget : Motion → Nat
  | .goTo _ t => t
  | _ => 0

/-- A MOVE over channels in order: the reply's entries and the state left (R140, R167). -/
def State.moveAll (kind : MoveKind) (d : Dir) (target : Nat) : List ChanId → State → List Byte × State
  | [], s => ([], s)
  | c :: cs, s =>
    let m := requestedMotion kind d target ((s.ch c).ms.active.get .travelLength)
    let r := s.moveOne c m
    let rest := State.moveAll kind d target cs r.2
    (byteOf c.val :: r.1.code :: (le16 m.reportedTarget ++ rest.1), rest.2)

/-! ## STOP (R147) -/

/-- STOP for one channel, by its state (R147). -/
def State.stopOne (s : State) (c : ChanId) : State :=
  match (s.ch c).ms.state with
  | .queued => s.endIdle c .stopped
  | .startup | .travel => s.dwellIdle c .stopped
  | .dwell =>
    match (s.ch c).successor with
    | some .startup | some .backoff => s.modCh c (·.redirectDwell .stopped)
    | _ => s
  | .backoff => s.dwellIdle c .reversed
  | .disabled | .idle | .fault => s

/-! ## Expiries -/

/-- The lease timer stopped (R146). -/
def Chan.stopLease (k : Chan) : Chan := { k with ms := { k.ms with lease := none } }

/-- A lease expires (R146); no effect when none runs. -/
def State.leaseExpiry (s : State) (c : ChanId) : State :=
  if (s.ch c).ms.lease.isSome then
    let s1 := s.modCh c Chan.stopLease
    match (s.ch c).ms.state with
    | .queued => s1.endIdle c .leaseExpired
    | .startup | .travel => s1.dwellIdle c .leaseExpired
    | .dwell =>
      match (s.ch c).successor with
      | some .startup => s1.modCh c (·.redirectDwell .leaseExpired)
      | _ => s1
    | .disabled | .idle | .backoff | .fault => s1
  else s

/-- A dwell timer expires and the channel enters its successor (R152, R154); no effect outside DWELL. -/
def State.dwellExpiry (s : State) (c : ChanId) : State :=
  let k := s.ch c
  match k.successor with
  | some (.idle r) => s.endIdle c r
  | some .startup =>
    match k.ms.motion with
    | some m =>
      if m.unattendedClose && !k.pd.known then s.endIdle c .positionLost
      else s.modCh c (fun k => k.enterStartup s.supply m)
    | none => s
  | some .backoff =>
    match k.ms.backoff with
    | some b =>
      if k.pd.meets .opening b.target then s.endIdle c .reversed
      else s.modCh c (fun k => k.enterBackoff s.supply b.target)
    | none => s
  | some (.fault cond) => s.enterFault c (.condition cond)
  | none => s

/-- The back-off timer expires (R154); no effect outside BACKOFF. -/
def State.backoffExpiry (s : State) (c : ChanId) : State :=
  if (s.ch c).ms.state = .backoff then s.dwellIdle c .backoffTimeout else s

end Sys2Proof.Machine
end

