-- ==== Sys2Proof/Machine/SupplyEvents.lean ====
section
/-! DEFINITION. The Supply Monitor (04): samples, U, the supply states with hysteresis, and the entry into CUTOFF. -/

namespace Sys2Proof.Machine

/-- The classification of a new U from the state held (R60, table). -/
def classify (st : SupplyState) (u : Nat) : SupplyState :=
  let toCutoff := match st with | .cutoff => 6300 | _ => 6000
  let toLow := match st with | .cutoff | .low => 9300 | _ => 9000
  let toNormal := match st with | .high => 15700 | _ => 16000
  if u < toCutoff then .cutoff
  else if u < toLow then .low
  else if u ≤ toNormal then .normal
  else .high

/-- U of a sample history: the mean of four samples rounded down, or the first sample since the reset (R59). -/
def filteredSupply (hist : List Nat) : Nat :=
  if hist.length = 4 then hist.foldl (· + ·) 0 / 4 else hist.headD 0

/-- A sample taken and classified (R59, R60); with no sample since the reset it is the first one (R68). -/
def Supply.sample (su : Supply) (mv : Nat) : Supply :=
  let hist := pushLast 4 su.hist (min mv 30000)
  let u := filteredSupply hist
  { pin := mv
    hist := hist
    u := u
    state := classify (if su.hist.isEmpty then .normal else su.state) u
    sampleIn := 1000 }

/-- The first sample after a reset, of the level at the input, by the plain boundaries (R68). -/
def Supply.firstSample (su : Supply) : Supply := { su with hist := [] }.sample su.pin

/-- What the entry into CUTOFF does to a channel, by its state (R64). -/
def State.cutoffOne (s : State) (c : ChanId) : State :=
  match (s.ch c).ms.state with
  | .startup | .travel | .backoff => (s.modCh c Chan.discardScratch).endIdle c .supplyCutoff
  | .dwell =>
    match (s.ch c).successor with
    | some (.idle r) => s.endIdle c r
    | some (.fault cond) => s.enterFault c (.condition cond)
    | _ => s.endIdle c .supplyCutoff
  | .disabled | .idle | .queued | .fault => s

/-- The effects of a change of supply state (R61, R62, R64). -/
def State.supplyChanged (s : State) : State :=
  let s1 := s.postSupply
  match s.supply.state with
  | .cutoff => allChans.foldl State.cutoffOne s1
  | .normal => s1.grantPass
  | .low | .high => s1

/-- A supply sample (R59 to R64); the first after a reset posts nothing (R68). -/
def State.supplySample (s : State) (mv : Nat) : State :=
  let s1 := { s with supply := s.supply.sample mv }
  if s.supply.hist.isEmpty || s1.supply.state == s.supply.state then s1 else s1.supplyChanged

/-- SUPPLY_SAMPLE. -/
def execSupplySample (mv : Nat) (s : State) : Host.Outcome State Fault Refusal := done (s.supplySample mv)

end Sys2Proof.Machine
end

