-- ==== Sys2Proof/Machine/Resets.lean ====
section
/-! DEFINITION. Power-on, FULL and PRESERVE reset, gathered from the blocks' rules (R17, R18, R38, R39, R50, R58, R68, R94,
R115, R116, R138, R163, R173, R182, R193), and the end of a transmitted frame, where a reset by request is taken (R192). -/

namespace Sys2Proof.Machine

/-- A decoder after a power-on reset: the first samples are those of the input levels (R20, R38). -/
def Decoder.powerOn (d : Decoder) : Decoder :=
  { Decoder.reset with
    pinA := d.pinA
    pinB := d.pinB
    histA := List.replicate 4 d.pinA
    histB := List.replicate 4 d.pinB
    filtA := d.pinA
    filtB := d.pinB }

/-- A channel after a power-on reset. -/
def Chan.powerOn (k : Chan) : Chan := { Chan.reset with pd := k.pd.powerOn }

/-- A power-on reset and a FULL reset (R17): everything to its reset value, then the first samples of supply and fault
lines (R58, R68). The input levels, the queue of commands and the model's counter of open orders are not the reset's. -/
def State.powerOn (s : State) : State :=
  State.firstLineSamples
    { State.reset with
      chans := s.chans.map Chan.powerOn
      lines := s.lines
      supply := s.supply.firstSample
      races := s.races
      pending := s.pending }

/-- Whether a channel's closure is being driven or braked: STARTUP, TRAVEL, DWELL, BACKOFF (R39). -/
def ChState.moving : ChState → Bool
  | .startup | .travel | .dwell | .backoff => true
  | .disabled | .idle | .queued | .fault => false

/-- A decoder after a PRESERVE reset (R39). -/
def Decoder.preserve (d : Decoder) (moving : Bool) : Decoder :=
  { d with known := d.known && !moving, timer := 0, prescaler := 0, overflow := 0, ring := [], watchdog := none,
           confirm := 0, difference := 0 }

/-- A channel after a PRESERVE reset (R18, R39, R50, R94, R115, R116, R138, R163). -/
def Chan.preserve (k : Chan) : Chan where
  pd := k.pd.preserve k.ms.state.moving
  out := .reset
  ee := { k.ee.emptyWindow with
    history := clearHistory, summary := .absent, sticky := .clear, lastStep := false, lane := none }
  rps := { k.rps with scratch := clearScratch }
  ms := { k.ms with
    state := if k.ms.state = .disabled then .disabled else .idle
    motion := none, lease := none, dwell := none, marker := false, backoff := none, cause := .none, taint := false }

/-- A PRESERVE reset (R18), with the first samples of supply and fault lines (R58, R68). -/
def State.preserve (s : State) : State :=
  State.firstLineSamples
    { s with
      chans := s.chans.map Chan.preserve
      supply := s.supply.firstSample
      effort := .reset
      arbiter := .reset
      pool := { s.pool with free := allFree, waiting := [], lost := 0 }
      link := .reset
      clock := ⟨0, 0⟩ }

/-- A reset by request (R192). -/
def State.takeReset (s : State) : ResetMode → State
  | .full => s.powerOn
  | .preserve => s.preserve

/-- The last byte of a frame has been sent (R187): a reply leaves the queue, and the RESET reply takes its reset (R192). No
effect when nothing is being sent. -/
def State.frameEnd (s : State) : State :=
  match s.link.sending with
  | none => s
  | some f =>
    let s1 := { s with link := { s.link with sending := none } }
    if f.isReply then
      let s2 := { s1 with link := { s1.link with replies := s1.link.replies.drop 1 } }
      match (s.link.replies.head?).bind Reply.reset with
      | some m => s2.takeReset m
      | none => s2
    else s1

/-- POWER_ON_RESET. -/
def execPowerOnReset (s : State) : Host.Outcome State Fault Refusal := done s.powerOn

/-- TRANSMIT_FRAME_END. -/
def execTransmitFrameEnd (s : State) : Host.Outcome State Fault Refusal := done s.frameEnd

end Sys2Proof.Machine
end

