-- ==== Sys2Proof/Machine/Configuration.lean ====
section
/-! DEFINITION. CONFIGURE, READ_PARAMETER, CHANNEL_DEFAULTS and LOCK (01, R161). -/

namespace Sys2Proof.Machine

/-- The fields of a CONFIGURE or READ_PARAMETER reply: identifier, channel, value (Table 11-1). -/
def paramFields (ident ch : Byte) (value : Nat) : List Byte := [ident, ch] ++ le16 value

/-! ## Writing a per-channel parameter -/

/-- The state conditions of R11 and R13 (R5, check 5). -/
def Chan.configBusy (k : Chan) (p : ChanParam) (v : Nat) : Bool :=
  match p with
  | .travelLength | .endMode => k.ms.state != .disabled
  | .enable => v == 0 && (match k.ms.state with
    | .queued | .startup | .travel | .dwell | .backoff => true
    | .disabled | .idle | .fault => false)
  | _ => false

/-- Both sets with a value stored and its adjustments made (R2, R7). -/
def Sequencer.storeBoth (m : Sequencer) (p : ChanParam) (v : Nat) : Sequencer :=
  { m with pending := m.pending.store p v, active := m.active.store p v }

/-- A DISABLED channel enabled (R12): the sets copied, the override flag judged, IDLE. -/
def Chan.enable (k : Chan) : Chan :=
  { k with ms := ({ k.ms with pending := k.ms.pending.set .enable 1 }).copySets }.enterIdle

/-- A channel in IDLE or FAULT disabled (R13): DISABLED, its position UNKNOWN. -/
def Chan.disable (k : Chan) : Chan :=
  ({ k with ms := k.ms.storeBoth .enable 0 }.rest .disabled .none).losePosition

/-- An accepted write of Enable (R12, R13). -/
def State.writeEnable (s : State) (c : ChanId) (v : Nat) : State :=
  match (s.ch c).ms.state, decide (v = 1) with
  | .disabled, true => s.modCh c Chan.enable
  | .idle, false => s.modCh c Chan.disable
  | .fault, false => (s.modCh c Chan.disable).judgeLatchesOf c
  | _, _ => s

/-- An accepted write of Travel length or End mode (R11): both sets, and the profile emptied. -/
def Chan.writeGeometry (k : Chan) (p : ChanParam) (v : Nat) : Chan :=
  { k with ms := k.ms.storeBoth p v }.emptyProfile

/-- An accepted write of a per-channel parameter with the value taken (R2, R5, R7, R11, R12, R13). -/
def State.writeChan (s : State) (c : ChanId) (p : ChanParam) (v : Nat) : State :=
  match p with
  | .enable => s.writeEnable c v
  | .endMode | .travelLength => s.modCh c (fun k => k.writeGeometry p v)
  | _ => s.modCh c (fun k => { k with ms := { k.ms with pending := k.ms.pending.store p v } })

/-- The checks of R5 from the third on, for a per-channel parameter. -/
def State.judgeChan (s : State) (c : ChanId) (p : ChanParam) (v : Nat) : Option Status :=
  if !p.row.range.admits v then some .badValue
  else if s.link.locked && p.row.safety then some .locked
  else if (s.ch c).configBusy p v then some .busy
  else if p = .enable ∧ v = 1 ∧ (s.ch c).ms.state = .disabled ∧ s.faultedBy c then some .faulted
  else none

/-! ## Writing a device-wide parameter -/

/-- A new map of a fault line (R55): channels added to an asserted line are treated as at an assertion, the latch judged. -/
def State.writeMap (s : State) (l : LineId) (v : Nat) : State :=
  let old := s.device.maps[l]
  let s1 := { s with device := s.device.put (.lineMap l) v }
  let added := (chansOf s1.device.maps[l]).filter (fun c => !inSet old c)
  (if s.lines[l].asserted then s1.assertOnAll l added else s1).judgeLatch l

/-- An accepted write of a device-wide parameter with the value taken (R15, R55). -/
def State.writeDev (s : State) (p : DevParam) (v : Nat) : State :=
  match p with
  | .lineMap l => s.writeMap l v
  | p => { s with device := s.device.put p v }

/-- The checks of R5 from the fourth on, for a device-wide parameter: every one is a safety parameter (R15, R164). -/
def State.judgeDev (s : State) (p : DevParam) : Option Status :=
  if s.link.locked then some .locked
  else if p = .slotCount ∧ !s.arbiter.holders.isEmpty then some .busy
  else none

/-- CONFIGURE (R5). -/
def reqConfigure (ident ch : Byte) (value : Nat) (s : State) : Answer × State :=
  match ParamId.ofByte ident with
  | none => (answer .badValue (paramFields ident ch 0), s)
  | some (.chan p) =>
    match chanOf ch with
    | none => (answer .badChannel (paramFields ident ch 0), s)
    | some c =>
      match s.judgeChan c p value with
      | some st => (answer st (paramFields ident ch ((s.ch c).ms.pending.get p)), s)
      | none =>
        let v := chanTaken (s.ch c).ms.pending p value
        (answer .ok (paramFields ident ch v), s.writeChan c p v)
  | some (.dev p) =>
    match s.judgeDev p with
    | some st => (answer st (paramFields ident ch (s.device.get p)), s)
    | none => (answer .ok (paramFields ident ch (p.taken value)), s.writeDev p (p.taken value))

/-- READ_PARAMETER (R8); a refusal echoes identifier and channel (R186, log 28). -/
def reqReadParameter (ident ch : Byte) (s : State) : Answer × State :=
  match ParamId.ofByte ident with
  | none => (answer .badValue [ident, ch], s)
  | some (.chan p) =>
    match chanOf ch with
    | none => (answer .badChannel [ident, ch], s)
    | some c => (answer .ok (paramFields ident ch ((s.ch c).ms.pending.get p)), s)
  | some (.dev p) => (answer .ok (paramFields ident ch (s.device.get p)), s)

/-- An accepted CHANNEL_DEFAULTS (R161). -/
def Chan.restoreDefaults (k : Chan) : Chan :=
  { k with
    ee := { k.ee.emptyWindow with sticky := .clear, summary := .absent, history := clearHistory }
    ms := { k.ms with pending := k.ms.pending.restoreDefaults } }

/-- Whether a channel is in IDLE or FAULT (R135, R161). -/
def Chan.atRest (k : Chan) : Bool := k.ms.state == .idle || k.ms.state == .fault

/-- CHANNEL_DEFAULTS (R161). -/
def reqChannelDefaults (ch : Byte) (s : State) : Answer × State :=
  match chanOf ch with
  | none => (answer .badChannel [ch], s)
  | some c =>
    if s.link.locked then (answer .locked [ch], s)
    else if !(s.ch c).atRest then (answer .busy [ch], s)
    else (answer .ok [ch], s.modCh c Chan.restoreDefaults)

/-- LOCK (R16). -/
def reqLock (s : State) : Answer × State :=
  (answer .ok [], { s with link := { s.link with locked := true } })

/-- CONFIGURE. -/
def execConfigure (tag ident ch : Byte) (value : Word16) (s : State) : Host.Outcome State Fault Refusal :=
  request s 0x02 tag (reqConfigure ident ch value.toNat)

/-- READ_PARAMETER. -/
def execReadParameter (tag ident ch : Byte) (s : State) : Host.Outcome State Fault Refusal :=
  request s 0x03 tag (reqReadParameter ident ch)

/-- CHANNEL_DEFAULTS. -/
def execChannelDefaults (tag ch : Byte) (s : State) : Host.Outcome State Fault Refusal :=
  request s 0x0E tag (reqChannelDefaults ch)

/-- LOCK. -/
def execLock (tag : Byte) (s : State) : Host.Outcome State Fault Refusal :=
  request s 0x11 tag reqLock

end Sys2Proof.Machine
end

