-- ==== Sys2Proof/Machine/Incidents.lean ====
section
/-! DEFINITION. INCIDENT_READ and INCIDENT_RELEASE (10, section 10.3). -/

namespace Sys2Proof.Machine

/-- INCIDENT_READ (R179): the pending number, the lost count, and the oldest pending record if there is one. -/
def reqIncidentRead (s : State) : Answer × State :=
  let record := match s.pool.waiting with
    | [] => []
    | r :: _ => s.pool.records[r].fields r
  (answer .ok ([byteOf s.pool.waiting.length, byteOf s.pool.lost] ++ record), s)

/-- A pending record released to the tail of the free list (R180). -/
def Pool.release (p : Pool) (r : RecId) : Pool :=
  { p with waiting := p.waiting.erase r, free := p.free ++ [r] }

/-- INCIDENT_RELEASE (R180). -/
def reqIncidentRelease (ident : Byte) (s : State) : Answer × State :=
  match recOf ident with
  | none => (answer .badValue [ident], s)
  | some r =>
    if s.pool.waiting.contains r then (answer .ok [ident], { s with pool := s.pool.release r })
    else (answer .notPending [ident], s)

/-- INCIDENT_READ. -/
def execIncidentRead (tag : Byte) (s : State) : Host.Outcome State Fault Refusal :=
  request s 0x0F tag reqIncidentRead

/-- INCIDENT_RELEASE. -/
def execIncidentRelease (tag ident : Byte) (s : State) : Host.Outcome State Fault Refusal :=
  request s 0x10 tag (reqIncidentRelease ident)

end Sys2Proof.Machine
end

