-- ==== Sys2Proof/Machine/MotionRequests.lean ====
section
/-! DEFINITION. The commands of the Motion Sequencer: MOVE, STOP and the expiries of lease, dwell and back-off (08). -/

namespace Sys2Proof.Machine

/-- MOVE (R140): refused whole when the kind or the direction is no code, that of a NORMALIZE too (log 37), else judged
channel by channel. -/
def reqMove (set : ChanSet) (kind dir : Byte) (target : Nat) (s : State) : Answer × State :=
  match kindOf kind, dirOf dir with
  | some k, some d =>
    let r := State.moveAll k d target (chansOf set) s
    (answer .ok r.1, r.2)
  | _, _ => (answer .badValue [], s)

/-- STOP (R147): every channel named is answered ACCEPTED. -/
def reqStop (set : ChanSet) (s : State) : Answer × State :=
  (answer .ok ((chansOf set).flatMap (fun c => [byteOf c.val, Status.ok.code])),
    (chansOf set).foldl State.stopOne s)

/-- MOVE. -/
def execMove (tag : Byte) (set : ChanSet) (kind dir : Byte) (target : Word16) (s : State) :
    Host.Outcome State Fault Refusal :=
  request s 0x04 tag (reqMove set kind dir target.toNat)

/-- STOP. -/
def execStop (tag : Byte) (set : ChanSet) (s : State) : Host.Outcome State Fault Refusal :=
  request s 0x05 tag (reqStop set)

/-- DWELL_EXPIRY. -/
def execDwellExpiry (c : ChanId) (s : State) : Host.Outcome State Fault Refusal := done (s.dwellExpiry c)

/-- BACKOFF_TIMER_EXPIRY. -/
def execBackoffTimerExpiry (c : ChanId) (s : State) : Host.Outcome State Fault Refusal := done (s.backoffExpiry c)

/-- LEASE_EXPIRY. -/
def execLeaseExpiry (c : ChanId) (s : State) : Host.Outcome State Fault Refusal := done (s.leaseExpiry c)

end Sys2Proof.Machine
end

