-- ==== Sys2Proof/Machine/ProfileRequests.lean ====
section
/-! DEFINITION. PROFILE_READ, PROFILE_LOAD and CHANNEL_RESTORE (07, section 7.5). -/

namespace Sys2Proof.Machine

/-- PROFILE_READ (R132). -/
def reqProfileRead (ch seg : Byte) (s : State) : Answer × State :=
  match chanOf ch with
  | none => (answer .badChannel [ch, seg], s)
  | some c =>
    match segOf seg with
    | none => (answer .badValue [ch, seg], s)
    | some g =>
      let k := s.ch c
      (answer .ok ([ch, seg] ++ le16 (k.ms.active.get .travelLength) ++ [byteOf (k.ms.active.get .endMode)] ++
        (segmentCells k.rps.cells g).flatMap Cell.image), s)

/-- Whether an image's state code is EMPTY or VALID (R133, check 3). -/
def CellImage.admitted (i : CellImage) : Bool := i.stateCode == 0 || i.stateCode == 1

/-- The cell taken from an image (R134). -/
def CellImage.taken (i : CellImage) : Cell :=
  if i.stateCode = 1 then
    ⟨.valid, clampNat 1 65535 i.reference.toNat, clampNat 1 255 i.count.toNat, min 2 i.strikes.toNat⟩
  else .blank

/-- The cells of a channel with the eight cells of a segment replaced (R134). -/
def loadSegment (cells : Vector Cell 64) (g : Fin 8) (images : List Cell) : Vector Cell 64 :=
  Vector.ofFn (fun k => if k.val / 8 = g.val then images.getD (k.val % 8) cells[k] else cells[k])

/-- Whether a profile may be loaded in the channel's state (R133, check 5). -/
def Chan.loadable (k : Chan) : Bool := k.ms.state == .idle || k.ms.state == .disabled || k.ms.state == .fault

/-- PROFILE_LOAD (R133, R134); a payload without eight images has the wrong length (R186, log 26). -/
def reqProfileLoad (ch seg : Byte) (images : List CellImage) (s : State) : Answer × State :=
  if images.length ≠ 8 then (answer .badLength [], s)
  else match chanOf ch with
  | none => (answer .badChannel [ch, seg], s)
  | some c =>
    match segOf seg with
    | none => (answer .badValue [ch, seg], s)
    | some g =>
      if !images.all CellImage.admitted then (answer .badValue [ch, seg], s)
      else if s.link.locked then (answer .locked [ch, seg], s)
      else if !(s.ch c).loadable then (answer .busy [ch, seg], s)
      else
        let taken := images.map CellImage.taken
        (answer .ok ([ch, seg] ++ taken.flatMap Cell.image),
          s.modCh c (fun k => { k with rps := { k.rps with cells := loadSegment k.rps.cells g taken } }))

/-- An accepted CHANNEL_RESTORE (R136), with the three values taken. -/
def Chan.restore (k : Chan) (position travel reversal : Nat) : Chan :=
  { k with
    pd := { k.pd with position := position, known := true, travel := travel }
    ms := { k.ms with reversal := reversal, override := decide (k.ms.active.get .reversalLimit ≤ reversal) } }

/-- CHANNEL_RESTORE (R135, R136). -/
def reqChannelRestore (ch : Byte) (position travel : Nat) (reversal : Nat) (s : State) : Answer × State :=
  match chanOf ch with
  | none => (answer .badChannel [ch], s)
  | some c =>
    let k := s.ch c
    if k.ms.state = .disabled then (answer .disabled [ch], s)
    else if !(k.ms.state == .idle || k.ms.state == .fault) then (answer .busy [ch], s)
    else
      let p := min position (k.ms.active.get .travelLength)
      let t := min travel 65535
      let r := min reversal 7
      (answer .ok ([ch] ++ le16 p ++ le16 t ++ [byteOf r]), s.modCh c (fun k => k.restore p t r))

/-- PROFILE_READ. -/
def execProfileRead (tag ch seg : Byte) (s : State) : Host.Outcome State Fault Refusal :=
  request s 0x0B tag (reqProfileRead ch seg)

/-- PROFILE_LOAD. -/
def execProfileLoad (tag ch seg : Byte) (cells : List CellImage) (s : State) : Host.Outcome State Fault Refusal :=
  request s 0x0C tag (reqProfileLoad ch seg cells)

/-- CHANNEL_RESTORE. -/
def execChannelRestore (tag ch : Byte) (position travel : Word16) (reversal : Byte) (s : State) :
    Host.Outcome State Fault Refusal :=
  request s 0x0D tag (reqChannelRestore ch position.toNat travel.toNat reversal.toNat)

end Sys2Proof.Machine
end

