-- ==== Sys2Proof/Machine/StatusRequests.lean ====
section
/-! DEFINITION. IDENTIFY, DEVICE_STATUS, RESET, VEHICLE_STATE, CHANNEL_STATUS, READ_WINDOW, CLEAR_CONDITIONS and CLEAR_FAULT. -/

namespace Sys2Proof.Machine

/-- The seven identity bytes (R190). -/
def identityBytes : List Byte := [1, 8, 1, 8, 4, 48, 4]

/-- IDENTIFY (R190). -/
def reqIdentify (s : State) : Answer × State := (answer .ok identityBytes, s)

/-- DEVICE_STATUS (R191). -/
def reqDeviceStatus (s : State) : Answer × State := (answer .ok s.deviceFields, s)

/-- The reset mode of a code (R192). -/
def resetModeOf (b : Byte) : Option ResetMode :=
  if b = 0 then some .full else if b = 1 then some .preserve else none

/-- RESET (R192): its reply carries the reset that is taken when it has been sent. -/
def reqReset (mode : Byte) (s : State) : Answer × State :=
  match resetModeOf mode with
  | some m => (⟨.ok, [mode], some m⟩, s)
  | none => (answer .badValue [mode], s)

/-- VEHICLE_STATE (R110). -/
def reqVehicleState (level : Byte) (speed : Word16) (s : State) : Answer × State :=
  let taken := min 7 level.toNat
  (answer .ok (byteOf taken :: le16 speed.toNat),
    { s with effort := { s.effort with
        road := taken
        speed := speed
        staleness := some (s.clock.ms + BitVec.ofNat 32 s.device.roadStaleness) } })

/-- CHANNEL_STATUS (R37): the snapshot, and the difference counter set to 0 in the same instant. -/
def reqChannelStatus (ch : Byte) (s : State) : Answer × State :=
  match chanOf ch with
  | none => (answer .badChannel [ch], s)
  | some c =>
    (answer .ok ((s.ch c).statusFields c), s.modCh c (fun k => { k with pd := { k.pd with difference := 0 } }))

/-- READ_WINDOW (R114). -/
def reqReadWindow (ch : Byte) (s : State) : Answer × State :=
  match chanOf ch with
  | none => (answer .badChannel [ch], s)
  | some c => (answer .ok ((s.ch c).windowFields c), s)

/-- CLEAR_CONDITIONS (R89). -/
def reqClearConditions (ch : Byte) (s : State) : Answer × State :=
  match chanOf ch with
  | none => (answer .badChannel [ch], s)
  | some c => (answer .ok [ch], s.modCh c (fun k => { k with ee := { k.ee with sticky := .clear } }))

/-- CLEAR_FAULT (R56). -/
def reqClearFault (ch : Byte) (s : State) : Answer × State :=
  match chanOf ch with
  | none => (answer .badChannel [ch], s)
  | some c =>
    if (s.ch c).ms.state = .fault then
      if s.faultedBy c then (answer .faulted [ch], s)
      else (answer .ok [ch], (s.modCh c Chan.enterIdle).judgeLatchesOf c)
    else (answer .ok [ch], s)

/-- IDENTIFY. -/
def execIdentify (tag : Byte) (s : State) : Host.Outcome State Fault Refusal := request s 0x01 tag reqIdentify

/-- VEHICLE_STATE. -/
def execVehicleState (tag level : Byte) (speed : Word16) (s : State) : Host.Outcome State Fault Refusal :=
  request s 0x06 tag (reqVehicleState level speed)

/-- CHANNEL_STATUS. -/
def execChannelStatus (tag ch : Byte) (s : State) : Host.Outcome State Fault Refusal :=
  request s 0x07 tag (reqChannelStatus ch)

/-- READ_WINDOW. -/
def execReadWindow (tag ch : Byte) (s : State) : Host.Outcome State Fault Refusal :=
  request s 0x08 tag (reqReadWindow ch)

/-- CLEAR_CONDITIONS. -/
def execClearConditions (tag ch : Byte) (s : State) : Host.Outcome State Fault Refusal :=
  request s 0x09 tag (reqClearConditions ch)

/-- CLEAR_FAULT. -/
def execClearFault (tag ch : Byte) (s : State) : Host.Outcome State Fault Refusal :=
  request s 0x0A tag (reqClearFault ch)

/-- RESET. -/
def execReset (tag mode : Byte) (s : State) : Host.Outcome State Fault Refusal := request s 0x12 tag (reqReset mode)

/-- DEVICE_STATUS. -/
def execDeviceStatus (tag : Byte) (s : State) : Host.Outcome State Fault Refusal :=
  request s 0x13 tag reqDeviceStatus

end Sys2Proof.Machine
end

