-- ==== Sys2Proof/Machine/Serial.lean ====
section
/-! DEFINITION. The receiver of the serial line (R183 to R186): bytes, frames, the judgement of a completed frame. -/

namespace Sys2Proof.Machine

/-- The cell image of five bytes (section 11.7). -/
def imageOf (b0 b1 b2 b3 b4 : Byte) : CellImage :=
  ⟨word16 b0 b1, word16 b2 b3, b4.extractLsb' 0 4, b4.extractLsb' 4 4⟩

/-- The cell images of a payload, five bytes each; bytes short of an image are left out. -/
def imagesOf : List Byte → List CellImage
  | b0 :: b1 :: b2 :: b3 :: b4 :: rest => imageOf b0 b1 b2 b3 b4 :: imagesOf rest
  | _ => []

/-- The payload lengths of Table 11-1; none for a type that is no request (R186, steps 2 and 3). -/
def payloadLength (type : Byte) : Option Nat :=
  match type.toNat with
  | 0x01 => some 0 | 0x02 => some 4 | 0x03 => some 2 | 0x04 => some 5 | 0x05 => some 1 | 0x06 => some 3
  | 0x07 => some 1 | 0x08 => some 1 | 0x09 => some 1 | 0x0A => some 1 | 0x0B => some 2 | 0x0C => some 42
  | 0x0D => some 6 | 0x0E => some 1 | 0x0F => some 0 | 0x10 => some 1 | 0x11 => some 0 | 0x12 => some 1
  | 0x13 => some 0
  | _ => none

/-- The owner of a request, with its fields read from a payload of the right length (Table 11-1). -/
def ownerOf (type : Byte) (p : List Byte) : State → Answer × State :=
  match type.toNat, p with
  | 0x01, [] => reqIdentify
  | 0x02, [i, c, v0, v1] => reqConfigure i c (word16 v0 v1).toNat
  | 0x03, [i, c] => reqReadParameter i c
  | 0x04, [set, k, d, t0, t1] => reqMove set k d (word16 t0 t1).toNat
  | 0x05, [set] => reqStop set
  | 0x06, [l, v0, v1] => reqVehicleState l (word16 v0 v1)
  | 0x07, [c] => reqChannelStatus c
  | 0x08, [c] => reqReadWindow c
  | 0x09, [c] => reqClearConditions c
  | 0x0A, [c] => reqClearFault c
  | 0x0B, [c, g] => reqProfileRead c g
  | 0x0C, c :: g :: cells => reqProfileLoad c g (imagesOf cells)
  | 0x0D, [c, p0, p1, t0, t1, r] => reqChannelRestore c (word16 p0 p1).toNat (word16 t0 t1).toNat r.toNat
  | 0x0E, [c] => reqChannelDefaults c
  | 0x0F, [] => reqIncidentRead
  | 0x10, [i] => reqIncidentRelease i
  | 0x11, [] => reqLock
  | 0x12, [m] => reqReset m
  | 0x13, [] => reqDeviceStatus
  | _, _ => fun s => (answer .badLength [], s)

/-- What judges a completed frame: UNKNOWN_TYPE, BAD_LENGTH, or the request's owner (R186, steps 2 to 4). -/
def frameOwner (type : Byte) (p : List Byte) : State → Answer × State :=
  match payloadLength type with
  | none => fun s => (answer .unknownType [], s)
  | some n => if p.length = n then ownerOf type p else fun s => (answer .badLength [], s)

/-- A completed frame: the buffer holds length, type, tag and payload (R186). -/
def State.frameComplete (s : State) : List Byte → State
  | _ :: type :: tag :: payload => s.dispatch type tag (frameOwner type payload)
  | _ => s

/-- The gap timer's time (R185): 1 ms. -/
def gapTime : Nat := 1000

/-- A byte taken by the receiver according to its phase (R185). -/
def State.receive (s : State) (b : Byte) : State :=
  let l := s.link
  match l.phase with
  | .hunt =>
    if b = 0x7E then { s with link := { l with buffer := [], phase := .length, gap := some gapTime } } else s
  | .length =>
    if b.toNat ≤ 48 then { s with link := { l with buffer := [b], phase := .body, gap := some gapTime } }
    else { s with link := { l with phase := .hunt, gap := none, lengthErrors := countUp l.lengthErrors } }
  | .body =>
    let buffer := l.buffer ++ [b]
    let whole := buffer.length = 3 + (buffer.headD 0).toNat
    { s with link := { l with buffer := buffer, phase := if whole then .check else .body, gap := some gapTime } }
  | .check =>
    let s1 := { s with link := { l with phase := .hunt, gap := none } }
    if b = crc l.buffer then s1.frameComplete l.buffer
    else { s1 with link := { s1.link with crcErrors := countUp l.crcErrors } }

/-- The gap timer expires (R185): in mid-frame the frame is dropped; no effect when it does not run. -/
def State.gapExpiry (s : State) : State :=
  let l := s.link
  if l.gap.isNone then s
  else if l.phase = .hunt then { s with link := { l with gap := none } }
  else { s with link := { l with phase := .hunt, gap := none, timeouts := countUp l.timeouts } }

/-- SERIAL_BYTE_RECEIVED: a byte whose stop bit is low is discarded as though it had not arrived (R183). -/
def execSerialByteReceived (b : Byte) (stopHigh : Bool) (s : State) : Host.Outcome State Fault Refusal :=
  done (if stopHigh then s.receive b else s)

/-- GAP_TIMER_EXPIRY. -/
def execGapTimerExpiry (s : State) : Host.Outcome State Fault Refusal := done s.gapExpiry

end Sys2Proof.Machine
end

