-- ==== Sys2Proof/Machine/Tick.lean ====
section
/-! DEFINITION. The part's own clock (log 1): which events have come due, and one microsecond in which none has. -/

namespace Sys2Proof.Machine

/-! ## Events that have come due -/

/-- An event, where its condition holds. -/
def dueIf (p : Bool) (e : Instr) : List Instr := if p then [e] else []

/-- Whether a countdown has reached 0. -/
def expired (t : Option Nat) : Bool := t == some 0

/-- The transition the newest samples show, judged for each phase on its own (R19, R21, R22). -/
def Decoder.dueTransition (d : Decoder) (c : ChanId) : List Instr :=
  match phaseChanges d.histA d.filtA, phaseChanges d.histB d.filtB with
  | true, true => [.illegalTransition c]
  | true, false => [.count c .a]
  | false, true => [.count c .b]
  | false, false => []

/-- Whether the interval timer passes 65535 at this capture tick (R26). -/
def Decoder.overflows (d : Decoder) (tick : Nat) : Bool :=
  decide (d.overflow < 2) && decide (65535 ≤ d.timer) && decide (tick ≤ d.prescaler)

/-- The events due at one channel. -/
def Chan.due (k : Chan) (c : ChanId) : List Instr :=
  k.pd.dueTransition c ++
    dueIf (k.pd.overflows (k.ms.active.get .captureTick)) (.intervalTimerOverflow c) ++
    dueIf (expired k.pd.watchdog) (.stallWatchdogExpiry c) ++
    dueIf (k.ms.state == .dwell && k.ms.dwell.any (fun d => d.timer == 0)) (.dwellExpiry c) ++
    dueIf (k.ms.state == .backoff && k.ms.backoff.any (fun b => expired b.timer)) (.backoffTimerExpiry c) ++
    dueIf (expired k.ms.lease) (.leaseExpiry c) ++
    dueIf (k.out.step.isSome && k.out.stepIn == 0) (.rampStep c) ++
    dueIf (k.out.pwm.any (fun t => decide (50 ≤ t))) (.pwmPeriodBoundary c)

/-- The events due at one fault line: all four samples show the other level (R51). -/
def FaultLine.due (f : FaultLine) (l : LineId) : List Instr :=
  dueIf (!f.asserted && f.hist.all (· == true)) (.faultLineAssertion l) ++
    dueIf (f.asserted && f.hist.all (· == false)) (.faultLineRelease l)

/-- Whether the clock has reached a time, by the clock's arithmetic modulo 2 to the power 32 (R106, R108, R111). -/
def reached (now : Millis) (t : Option Millis) : Bool :=
  t.any (fun e => decide ((now - e).toNat < 2147483648))

/-- Every event that is due. -/
def State.due (s : State) : List Instr :=
  allChans.flatMap (fun c => (s.ch c).due c ++ dueIf (oldestRequest c s.effort.requests).isSome (.evaluation c)) ++
    allLines.flatMap (fun l => s.lines[l].due l) ++
    dueIf (s.supply.sampleIn == 0) (.supplySample s.supply.pin) ++
    dueIf (reached s.clock.ms s.effort.hold) .commonModeHoldExpiry ++
    dueIf (reached s.clock.ms s.effort.staleness) .roadLevelStalenessExpiry ++
    dueIf (expired s.link.gap) .gapTimerExpiry ++
    dueIf (s.link.sending.any (fun f => f.left == 0)) .transmitFrameEnd

/-! ## One microsecond -/

/-- A countdown after 1 µs. -/
def countdown (t : Option Nat) : Option Nat := t.map (· - 1)

/-- The Hall phases sampled at the end of each Filter interval (R19). -/
def Decoder.sampleTick (d : Decoder) (interval : Nat) : Decoder :=
  if d.sampleIn ≤ 1 then
    { d with histA := pushLast 4 d.histA d.pinA, histB := pushLast 4 d.histB d.pinB, sampleIn := interval }
  else { d with sampleIn := d.sampleIn - 1 }

/-- The interval timer after 1 µs (R26): it holds at the second overflow, and waits for its event at 65535. -/
def Decoder.timerTick (d : Decoder) (tick : Nat) : Decoder :=
  if 2 ≤ d.overflow then d
  else if d.prescaler + 1 < tick then { d with prescaler := d.prescaler + 1 }
  else if d.timer < 65535 then { d with timer := d.timer + 1, prescaler := 0 }
  else { d with prescaler := d.prescaler + 1 }

/-- The drive outputs after 1 µs (R43, R45). -/
def DriveOut.tick (o : DriveOut) : DriveOut :=
  { o with stepIn := o.stepIn - 1, pwm := o.pwm.map (· + 1) }

/-- The sequencer's timers after 1 µs (R146, R152, R154). -/
def Sequencer.tick (m : Sequencer) : Sequencer :=
  { m with
    lease := countdown m.lease
    dwell := m.dwell.map (fun d => { d with timer := d.timer - 1 })
    backoff := m.backoff.map (fun b => { b with timer := countdown b.timer }) }

/-- One channel after 1 µs. -/
def Chan.tick (k : Chan) : Chan :=
  let d := (k.pd.sampleTick (k.ms.active.get .filterInterval)).timerTick (k.ms.active.get .captureTick)
  { k with pd := { d with watchdog := countdown d.watchdog }, out := k.out.tick, ms := k.ms.tick }

/-- The four fault lines sampled every 2 µs (R51). -/
def State.linesTick (s : State) : State :=
  if s.lineSampleIn ≤ 1 then
    { s with lines := s.lines.map (fun f => { f with hist := pushLast 4 f.hist f.pin }), lineSampleIn := 2 }
  else { s with lineSampleIn := s.lineSampleIn - 1 }

/-- The millisecond clock after 1 µs (R116). -/
def Clock.tick (k : Clock) : Clock := if 999 ≤ k.us then ⟨k.ms + 1, 0⟩ else ⟨k.ms, k.us + 1⟩

/-- The link's timers after 1 µs (R185, R187). -/
def Link.tick (l : Link) : Link :=
  { l with gap := countdown l.gap, sending := l.sending.map (fun f => { f with left := f.left - 1 }) }

/-- The part after 1 µs in which no event is due. -/
def State.elapse (s : State) : State :=
  let s1 := (s.mapCh Chan.tick).linesTick
  { s1 with
    supply := { s.supply with sampleIn := s.supply.sampleIn - 1 }
    link := s.link.tick
    clock := s.clock.tick }

/-- The event taken of those due: of several at one moment the choice is a free value (log 2). -/
def State.chooseDue (s : State) (es : List Instr) : List Instr :=
  (es.drop (Config.raceKey s.races 0 % es.length)).take 1

/-- What the part does when no command waits (log 1): an event that is due is put in the queue, or 1 µs passes. -/
def State.idleStep (s : State) : State :=
  match s.due with
  | [] => s.elapse
  | [e] => { s with pending := [e] }
  | es => { s.countRace with pending := s.chooseDue es }

end Sys2Proof.Machine
end

