-- ==== Sys2Proof/Machine/Dispatch.lean ====
section
/-! DEFINITION. One arm per command: its meaning. -/

namespace Sys2Proof.Machine

/-- The effect of a command on everything but the queue. -/
def exec (i : Instr) (s : State) : Host.Outcome State Fault Refusal :=
  match i with
  | .identify tag => Sys2Proof.Machine.execIdentify tag s
  | .configure tag ident ch value => Sys2Proof.Machine.execConfigure tag ident ch value s
  | .readParameter tag ident ch => Sys2Proof.Machine.execReadParameter tag ident ch s
  | .move tag set kind dir target => Sys2Proof.Machine.execMove tag set kind dir target s
  | .stop tag set => Sys2Proof.Machine.execStop tag set s
  | .vehicleState tag level speed => Sys2Proof.Machine.execVehicleState tag level speed s
  | .channelStatus tag ch => Sys2Proof.Machine.execChannelStatus tag ch s
  | .readWindow tag ch => Sys2Proof.Machine.execReadWindow tag ch s
  | .clearConditions tag ch => Sys2Proof.Machine.execClearConditions tag ch s
  | .clearFault tag ch => Sys2Proof.Machine.execClearFault tag ch s
  | .profileRead tag ch seg => Sys2Proof.Machine.execProfileRead tag ch seg s
  | .profileLoad tag ch seg cells => Sys2Proof.Machine.execProfileLoad tag ch seg cells s
  | .channelRestore tag ch position travel reversal => Sys2Proof.Machine.execChannelRestore tag ch position travel reversal s
  | .channelDefaults tag ch => Sys2Proof.Machine.execChannelDefaults tag ch s
  | .incidentRead tag => Sys2Proof.Machine.execIncidentRead tag s
  | .incidentRelease tag ident => Sys2Proof.Machine.execIncidentRelease tag ident s
  | .lock tag => Sys2Proof.Machine.execLock tag s
  | .reset tag mode => Sys2Proof.Machine.execReset tag mode s
  | .deviceStatus tag => Sys2Proof.Machine.execDeviceStatus tag s
  | .serialByteReceived b stopHigh => Sys2Proof.Machine.execSerialByteReceived b stopHigh s
  | .gapTimerExpiry => Sys2Proof.Machine.execGapTimerExpiry s
  | .transmitFrameEnd => Sys2Proof.Machine.execTransmitFrameEnd s
  | .powerOnReset => Sys2Proof.Machine.execPowerOnReset s
  | .count c phase => Sys2Proof.Machine.execCount c phase s
  | .illegalTransition c => Sys2Proof.Machine.execIllegalTransition c s
  | .intervalTimerOverflow c => Sys2Proof.Machine.execIntervalTimerOverflow c s
  | .stallWatchdogExpiry c => Sys2Proof.Machine.execStallWatchdogExpiry c s
  | .evaluation c => Sys2Proof.Machine.execEvaluation c s
  | .dwellExpiry c => Sys2Proof.Machine.execDwellExpiry c s
  | .backoffTimerExpiry c => Sys2Proof.Machine.execBackoffTimerExpiry c s
  | .leaseExpiry c => Sys2Proof.Machine.execLeaseExpiry c s
  | .rampStep c => Sys2Proof.Machine.execRampStep c s
  | .commonModeHoldExpiry => Sys2Proof.Machine.execCommonModeHoldExpiry s
  | .roadLevelStalenessExpiry => Sys2Proof.Machine.execRoadLevelStalenessExpiry s
  | .supplySample mv => Sys2Proof.Machine.execSupplySample mv s
  | .faultLineAssertion l => Sys2Proof.Machine.execFaultLineAssertion l s
  | .faultLineRelease l => Sys2Proof.Machine.execFaultLineRelease l s
  | .pwmPeriodBoundary c => Sys2Proof.Machine.execPwmPeriodBoundary c s

end Sys2Proof.Machine
end

