-- ==== Sys2Proof/Machine/Step.lean ====
section
/-! DEFINITION. One step of the part, and the placing of a command a word spells. -/

namespace Sys2Proof.Machine

/-- One step: the command at the front of the queue, or, with none waiting, the part's own clock (log 1). -/
def step (s : State) : Host.Outcome State Fault Refusal :=
  match s.pending with
  | [] => .next s.idleStep
  | c :: rest => exec c { s with pending := rest }

/-- The state with the command a word spells put at the front of the queue; no word spells one (log 24). -/
def State.withFetchWord (s : State) (nbits w : Nat) : State :=
  match decodeTableWord nbits w with
  | none => s
  | some c => { s with pending := c :: s.pending }

end Sys2Proof.Machine
end

