-- ==== Sys2Proof/Machine/Outputs.lean ====
section
/-! DEFINITION. The output pins as views of the state: the half-bridge commands (R40, R43) and the transmit line (R183). -/

namespace Sys2Proof.Machine

/-- What a command output asks of its half bridge (R40). -/
inductive SideLevel where
  | floating | low | high
deriving DecidableEq, Repr

/-- The driven side of a PWM period: high for the first applied duty × 50 / 1024 µs (R43). -/
def DriveOut.pwmLevel (o : DriveOut) : SideLevel :=
  if o.pwm.any (fun t => decide (t * 1024 < o.applied * 50)) then .high else .low

/-- The closing side and the opening side of a bridge (R40). -/
def DriveOut.sides (o : DriveOut) : SideLevel × SideLevel :=
  match o.mode with
  | .off => (.floating, .floating)
  | .brake => (.low, .low)
  | .driveClose => (o.pwmLevel, .low)
  | .driveOpen => (.low, o.pwmLevel)

/-- Side A and side B: the Drive polarity of the active set chooses the closing side (R40). -/
def Chan.bridgeSides (k : Chan) : SideLevel × SideLevel :=
  if k.ms.active.on .drivePolarity then (k.out.sides.2, k.out.sides.1) else k.out.sides

/-- The level of the transmit line, 4 µs to a bit (R183); high when the transmitter is free is the model's choice (log 40). -/
def Link.transmitLevel (l : Link) : Bool :=
  match l.sending with
  | none => true
  | some f => (f.bytes.flatMap lineBits).getD ((lineTime f.bytes - f.left) / 4) true

end Sys2Proof.Machine
end

