-- ==== Sys2Proof/Safety.lean ====
section
/-! DEFINITION. The laws of the part: what every step keeps, and the words the statements use for a request that is judged
and answered. A step of this part never faults and never refuses, so a safe run is one whose states keep these laws. -/

namespace Sys2Proof.Machine

/-! ## Requests that are judged -/

/-- A request is judged by its owner: no reset is awaited (R192) and the reply queue has room (R186). -/
def State.hearing (s : State) : Prop := s.link.resetAwaited = false ∧ s.link.replies.length < 4

/-- The part with a reply that arranges no reset appended, its status byte first, and the transmitter served (R186, R187). -/
def State.answered (s : State) (type tag status : Byte) (fields : List Byte) : State :=
  State.serve { s with link := { s.link with replies := s.link.replies ++ [⟨type, tag, status :: fields, none⟩] } }

/-- The nineteen requests of Table 11-1. -/
def isRequest : Instr → Bool
  | .identify _ | .configure _ _ _ _ | .readParameter _ _ _ | .move _ _ _ _ _ | .stop _ _ | .vehicleState _ _ _
  | .channelStatus _ _ | .readWindow _ _ | .clearConditions _ _ | .clearFault _ _ | .profileRead _ _ _
  | .profileLoad _ _ _ _ | .channelRestore _ _ _ _ _ | .channelDefaults _ _ | .incidentRead _
  | .incidentRelease _ _ | .lock _ | .reset _ _ | .deviceStatus _ => true
  | .serialByteReceived _ _ | .gapTimerExpiry | .transmitFrameEnd | .powerOnReset | .count _ _
  | .illegalTransition _ | .intervalTimerOverflow _ | .stallWatchdogExpiry _ | .evaluation _ | .dwellExpiry _
  | .backoffTimerExpiry _ | .leaseExpiry _ | .rampStep _ | .commonModeHoldExpiry | .roadLevelStalenessExpiry
  | .supplySample _ | .faultLineAssertion _ | .faultLineRelease _ | .pwmPeriodBoundary _ => false

/-! ## What a command leaves alone -/

/-- Every channel but one stands as before. -/
def State.SameOthers (s t : State) (c : ChanId) : Prop := ∀ d : ChanId, d ≠ c → t.ch d = s.ch d

/-- Parameters, fault lines, supply, clock and the shared state of the evaluator stand as before. -/
def State.SameDevice (s t : State) : Prop :=
  t.device = s.device ∧ t.lines = s.lines ∧ t.supply = s.supply ∧ t.clock = s.clock ∧ t.effort = s.effort

/-- The receiver, the lock, the error counters and the reply queue stand as before. -/
def State.SameLink (s t : State) : Prop :=
  t.link.phase = s.link.phase ∧ t.link.buffer = s.link.buffer ∧ t.link.gap = s.link.gap ∧
    t.link.replies = s.link.replies ∧ t.link.locked = s.link.locked ∧ t.link.lengthErrors = s.link.lengthErrors ∧
    t.link.crcErrors = s.link.crcErrors ∧ t.link.timeouts = s.link.timeouts ∧ t.link.overruns = s.link.overruns

/-- Slots, queue, parameters, fault lines, supply, clock, the evaluator's shared state and the link stand as before, but
for notices and the transmitter. -/
def State.SameShared (s t : State) : Prop := t.arbiter = s.arbiter ∧ s.SameDevice t ∧ s.SameLink t

/-- A channel in DWELL with a successor: braked, the duty 0, no lease but toward STARTUP, no watchdog (R41, R49, R152). -/
def Chan.DwellsToward (k : Chan) (succ : Successor) : Prop :=
  k.ms.state = .dwell ∧ k.successor = some succ ∧ k.out.mode = .brake ∧ k.out.applied = 0 ∧ k.out.step = none ∧
    k.out.pwm = none ∧ k.pd.watchdog = none ∧ (succ ≠ .startup → k.ms.motion = none ∧ k.ms.lease = none) ∧
    k.ms.dwell.map DwellRecord.timer = some (k.ms.active.get .dwellTime * 1000)

/-- The outputs begin the drive of a motion at an entry into STARTUP that copies a set: the DRIVE mode of its direction, the
target duty by its kind and direction, the ramp at its starting value, or at the target with Ramp time 0, its first step due
after a millisecond (0 for an idle ramp, log 33), and a new PWM period with the ramp value held to the ceiling (R41, R43 to R45,
R47, log 21). -/
def DriveOut.BeginsDrive (o : DriveOut) (ps : ParamSet) (m : Motion) (su : Supply) : Prop :=
  let target := if m = .normalize .seek then ps.get .seekDuty
    else if m.dir = .closing then ps.get .closingDuty else ps.get .openingDuty
  let start := if ps.get .rampTime = 0 then target else min (ps.get .startDuty) target
  o.mode = (if m.dir = .closing then .driveClose else .driveOpen) ∧ o.target = target ∧ o.ramp = start ∧
    o.step = (if ps.get .rampTime = 0 then none else some 1) ∧ o.stepIn = (if ps.get .rampTime = 0 then 0 else 1000) ∧
    o.applied = (if su.state = .high then min start (16384000 / su.u) else start) ∧ o.pwm = some 0

/-- The entries of the notice pending set at a position (R188). -/
def Notices.occupied (n : Notices) (p : Fin 9) : Bool :=
  match channelAt p with
  | some c => n.motionEnd[c].isSome || n.incident[c].isSome
  | none => n.faultLine.isSome || n.supply.isSome

/-- A notice posted at this moment waits: the transmitter is busy, or a reply goes first (R187). -/
def State.noticesWait (s : State) : Prop := s.link.sending.isSome = true ∨ s.link.replies ≠ []

/-- An incident record is taken: the pool lends the head of its free list, or counts the incident as lost (R175, R176). -/
def State.RecordTaken (s t : State) (i : Incident) : Prop :=
  (∀ r rest, s.pool.free = r :: rest → t.pool.free = rest ∧ t.pool.waiting = s.pool.waiting ++ [r] ∧
    t.pool.lost = s.pool.lost ∧ t.pool.records[r] = i ∧ (∀ q, q ≠ r → t.pool.records[q] = s.pool.records[q]) ∧
    (s.noticesWait → t.link.notices.incident[i.chan] = some r)) ∧
  (s.pool.free = [] → t.pool = { s.pool with lost := min 255 (s.pool.lost + 1) })

/-- The record of a condition stop of a channel at a position (R177, R178). -/
def State.conditionRecord (s : State) (c : ChanId) (x : Condition) (p : Int) (known : Bool) : Incident :=
  ⟨c, .condition x, s.clock.ms, p, known, zoneAt (s.ch c).ms.active p, (s.ch c).ms.reversal, s.supply.u,
    (s.ch c).out.applied, s.effort.road, s.effort.hold.isSome, none⟩

/-- The record of a bridge fault of a channel (R177, R178). -/
def State.bridgeRecord (s : State) (l : LineId) (c : ChanId) : Incident :=
  let k := s.ch c
  ⟨c, .bridge l, s.clock.ms, k.pd.position, k.pd.known, zoneAt k.ms.active k.pd.position, k.ms.reversal, s.supply.u,
    k.out.applied, s.effort.road, s.effort.hold.isSome, none⟩

/-- The channels of a set that an assertion acts on: enabled and not in FAULT (R52). -/
def State.faultable (s : State) (m : ChanSet) : List ChanId :=
  (chansOf m).filter (fun c => decide ((s.ch c).ms.state ≠ .disabled) && decide ((s.ch c).ms.state ≠ .fault))

/-- Each channel of a list takes one record of its bridge fault, in some order, as far as the free list goes; the rest are
counted as lost (R52, R175, R176). -/
def State.BridgeRecordsTaken (s t : State) (l : LineId) (cs : List ChanId) : Prop :=
  let taken := s.pool.free.take cs.length
  t.pool.free = s.pool.free.drop cs.length ∧ t.pool.waiting = s.pool.waiting ++ taken ∧
    t.pool.lost = (if cs.length ≤ s.pool.free.length then s.pool.lost
      else min 255 (s.pool.lost + (cs.length - s.pool.free.length))) ∧
    (∀ r, r ∉ taken → t.pool.records[r] = s.pool.records[r]) ∧
    (∀ r ∈ taken, ∃ c ∈ cs, t.pool.records[r] = s.bridgeRecord l c) ∧
    (taken.map (fun r => (t.pool.records[r]).chan)).Nodup ∧
    (cs.length ≤ s.pool.free.length → ∀ c ∈ cs, ∃ r ∈ taken, t.pool.records[r] = s.bridgeRecord l c)

/-- The notices of the bridge faults of a list of channels: FAULT_STOP where a motion ended, INCIDENT where a record was
taken, and no other (R158, R175, R176). -/
def State.BridgeNoticesPosted (s t : State) (cs : List ChanId) : Prop :=
  (∀ c ∈ cs, t.link.notices.motionEnd[c] = if (s.ch c).ms.state = .idle then s.link.notices.motionEnd[c]
    else some ⟨.faultStop, (s.ch c).pd.position, (s.ch c).pd.known⟩) ∧
  (∀ c, c ∉ cs → t.link.notices.motionEnd[c] = s.link.notices.motionEnd[c] ∧
    t.link.notices.incident[c] = s.link.notices.incident[c]) ∧
  (∀ c ∈ cs, ∀ r ∈ s.pool.free.take cs.length, (t.pool.records[r]).chan = c → t.link.notices.incident[c] = some r) ∧
  (∀ c ∈ cs, (∀ r ∈ s.pool.free.take cs.length, (t.pool.records[r]).chan ≠ c) →
    t.link.notices.incident[c] = s.link.notices.incident[c])

/-! ## Counts (R21, R23) -/

/-- The position a count of a phase would lead to (R21). -/
def Chan.counted (k : Chan) (ph : HallPhase) : Int := k.pd.position + if k.countDir ph = .closing then -1 else 1

/-- A count of a phase leaves the position within its bounds (R23). -/
def Chan.countInBounds (k : Chan) (ph : HallPhase) : Prop :=
  -64 ≤ k.counted ph ∧ k.counted ph ≤ (k.ms.active.get .travelLength : Int) + 64

/-- The position and its validity after a count of a phase (R23). -/
def Chan.PositionFollows (k u : Chan) (ph : HallPhase) : Prop :=
  (k.pd.known = true → k.countInBounds ph → u.pd.position = k.counted ph ∧ u.pd.known = true) ∧
  (k.pd.known = true → ¬k.countInBounds ph → u.pd.position = k.pd.position ∧ u.pd.known = false) ∧
  (k.pd.known = false → u.pd.position = max (-64) (min ((k.ms.active.get .travelLength : Int) + 64) (k.counted ph)) ∧
    u.pd.known = false)

/-! ## Outputs and fault lines (R41, R43, R52) -/

/-- The output mode is the one the channel state calls for, and outside a drive nothing is driven (R41, R43). -/
def Chan.OutputsFollow (k : Chan) : Prop :=
  match k.ms.state with
  | .startup | .travel => k.ms.motion.map (fun m => m.dir.mode) = some k.out.mode
  | .backoff => k.out.mode = .driveOpen
  | .dwell => k.out.mode = .brake ∧ k.out.applied = 0 ∧ k.out.step = none ∧ k.out.pwm = none
  | .disabled | .idle | .queued | .fault =>
    k.out.mode = .off ∧ k.out.applied = 0 ∧ k.out.step = none ∧ k.out.pwm = none

/-- The output mode of every channel follows its state (R41). -/
def State.OutputsLaw (s : State) : Prop := ∀ c : ChanId, (s.ch c).OutputsFollow

/-- Every channel in the map of an asserted line is DISABLED or in FAULT (R52). -/
def State.FaultLineLaw (s : State) : Prop :=
  ∀ (l : LineId) (c : ChanId), s.lines[l].asserted = true → inSet s.device.maps[l] c = true →
    (s.ch c).ms.state = .disabled ∨ (s.ch c).ms.state = .fault

/-! ## Slots and the grant queue (R164 to R166) -/

/-- A channel holds a drive slot from STARTUP until it enters IDLE or FAULT (R139, R165). -/
def ChState.holding : ChState → Bool
  | .startup | .travel | .dwell | .backoff => true
  | .disabled | .idle | .queued | .fault => false

/-- The slot holders are a set of at most Slot count channels, and the Slot count is 1 to 4 (R164). -/
def State.SlotLaw (s : State) : Prop :=
  s.arbiter.holders.Pairwise (· < ·) ∧ s.arbiter.holders.length ≤ s.device.slotCount ∧
    1 ≤ s.device.slotCount ∧ s.device.slotCount ≤ 4

/-- HELD entries stand before UNHELD entries (R166). -/
def heldFirst (q : List QueueEntry) : Prop := q.Pairwise (fun a b => b.held = true → a.held = true)

/-- The channels that hold a slot are those in STARTUP, TRAVEL, DWELL and BACKOFF; the channels in the queue are those in
QUEUED, each once, each with the class of its motion, HELD entries first (R165, R166). -/
def State.ArbiterLaw (s : State) : Prop :=
  (∀ c : ChanId, c ∈ s.arbiter.holders ↔ (s.ch c).ms.state.holding = true) ∧
    (∀ c : ChanId, c ∈ s.arbiter.queue.map QueueEntry.chan ↔ (s.ch c).ms.state = .queued) ∧
    (s.arbiter.queue.map QueueEntry.chan).Nodup ∧
    (∀ e ∈ s.arbiter.queue, (s.ch e.chan).ms.motion.map Motion.held = some e.held) ∧
    heldFirst s.arbiter.queue

/-- No channel waits while a grant can be made (R167, R168). -/
def State.NoneWaits (s : State) : Prop := s.canGrant = true → s.arbiter.queue = []

/-! ## Incident records (R174, R176) -/

/-- Each record stands in exactly one of the free list and the pending list, once (R174); the lost count is 0 to 255 (R176). -/
def Pool.Partitioned (p : Pool) : Prop := (p.free ++ p.waiting).Perm allFree ∧ p.lost ≤ 255

/-! ## Positions and counters (R2, R23, R35, R36, R156) -/

/-- Travel length, End mode and Enable are equal in both sets (R2). -/
def Sequencer.SetsAgree (m : Sequencer) : Prop :=
  m.active.get .travelLength = m.pending.get .travelLength ∧ m.active.get .endMode = m.pending.get .endMode ∧
    m.active.get .enable = m.pending.get .enable

/-- A KNOWN position lies within -64 to L+64 (R23), and the position of a DISABLED channel is UNKNOWN (R14). -/
def Chan.PositionLaw (k : Chan) : Prop :=
  k.ms.SetsAgree ∧ (k.ms.state = .disabled → k.pd.known = false) ∧
    (k.pd.known = true → -64 ≤ k.pd.position ∧ k.pd.position ≤ (k.ms.active.get .travelLength : Int) + 64)

/-- The counters of a channel lie within their ranges (02 and 08, state tables). -/
def Chan.CounterLaw (k : Chan) : Prop :=
  k.ms.reversal ≤ 7 ∧ -32767 ≤ k.pd.difference ∧ k.pd.difference ≤ 32767 ∧ k.pd.travel ≤ 65535 ∧
    k.pd.timer ≤ 65535 ∧ k.pd.overflow ≤ 2 ∧ k.pd.ring.length ≤ 4 ∧ k.pd.confirm ≤ 2 ∧ k.ms.blanking ≤ 64

/-! ## Parameter sets (R6, R7) -/

/-- A value is one a parameter takes by Table 1-1 (R6). -/
def Range.holds : Range → Nat → Prop
  | .codes cs, v => v ∈ cs
  | .span lo hi, v => lo ≤ v ∧ v ≤ hi

/-- Every value is in its range, M does not exceed K, and Z_seal ≤ Z_pinch ≤ L (R6, R7). -/
def ParamSet.Ordered (ps : ParamSet) : Prop :=
  (∀ p : ChanParam, p.row.range.holds (ps.get p)) ∧ ps.get .persistenceCount ≤ ps.get .persistenceDepth ∧
    ps.get .zSeal ≤ ps.get .zPinch ∧ ps.get .zPinch ≤ ps.get .travelLength

/-- Both sets of a channel are ordered (R7). -/
def Chan.ParamLaw (k : Chan) : Prop := k.ms.pending.Ordered ∧ k.ms.active.Ordered ∧ k.ms.SetsAgree

/-! ## Windows and profiles (R95, R117) -/

/-- Every slot value lies within -2048 to 2047 (R95), and the history holds eight entries (R103). -/
def Chan.WindowLaw (k : Chan) : Prop :=
  (∀ i : Fin 8, -2048 ≤ k.ee.slots[i].value ∧ k.ee.slots[i].value ≤ 2047) ∧ k.ee.history.length = 8

/-- The law of a profile cell (R117). -/
def Cell.Lawful (c : Cell) : Prop :=
  match c.state with
  | .valid => 1 ≤ c.reference ∧ c.reference ≤ 65535 ∧ 1 ≤ c.count ∧ c.count ≤ 255 ∧ c.strikes ≤ 2
  | .empty => c.reference = 0 ∧ c.count = 0 ∧ c.strikes = 0

/-- A scratch pair is the sum of at most 4095 normalized periods of 1 to 65535 (R78). -/
def ScratchPair.Lawful (p : ScratchPair) : Prop := p.count ≤ p.sum ∧ p.sum ≤ 65535 * p.count ∧ p.count ≤ 4095

/-- Every cell and every scratch pair of a channel is lawful (R78, R117). -/
def Chan.ProfileLaw (k : Chan) : Prop := (∀ i : Fin 64, k.rps.cells[i].Lawful) ∧ ∀ i : Fin 64, k.rps.scratch[i].Lawful

/-- A window is full: no slot is EMPTY (R97). -/
def Excess.Full (e : Excess) : Prop := ∀ i : Fin 8, e.slots[i].tag ≠ .empty

/-- An average recorded with a window: floor of the sum of its eight values over 8 when it is full, absent otherwise (R97,
R105). -/
def Excess.AverageIs (e : Excess) (a : Option Int) : Prop :=
  (e.Full → a = some (((List.finRange 8).map (fun i : Fin 8 => (e.slots[i] : Slot).value)).sum.fdiv 8)) ∧ (¬e.Full → a = none)

/-! ## The link (R185, R186) -/

/-- The reply queue holds at most four replies (R186), and the error counters stop at 65535 (R185, R186). -/
def Link.Lawful (l : Link) : Prop :=
  l.replies.length ≤ 4 ∧ l.lengthErrors ≤ 65535 ∧ l.crcErrors ≤ 65535 ∧ l.timeouts ≤ 65535 ∧ l.overruns ≤ 65535

end Sys2Proof.Machine
end

