-- ==== Sys2Proof/Certificates/Slice0/Obligations.lean ====
section
/-! DEFINITION. The statements about the part, for the provers. Where one rests on the model's own choice, its docstring
names the log entry. -/

open Sys2Proof Sys2Proof.Machine

/-! ## The step -/

/-- A step takes the command at the front of the queue, and acts as its meaning on the state with the queue's rest. -/
def Obligations.StepRunsFrontCommand : Prop :=
  ∀ (c : Instr) (s : State), step { s with pending := c :: s.pending } = exec c s

/-- With no command waiting the part's own clock acts (the model's choice, log 1, log 2): with no event due 1 µs passes;
one event due is put in the queue; of several, one of them is, and the model's counter of open orders rises. What that
microsecond does: the samplers of the Hall phases and the fault lines take their samples and start again; the interval
timer counts one tick per Capture tick, until it can count no further (log 9); watchdog, lease, DWELL, back-off, gap and
transmitter lose 1 µs (log 22), the ramp and the PWM period advance, the millisecond clock counts; nothing else changes.
Which events are due (log 2): a count or an illegal transition when three of the four samples of a phase, or of both,
differ from its accepted level; a line's assertion or release when all its samples show it; an expiry when its timer has
reached 0; never a request, a power-on or a received byte. -/
def Obligations.EmptyQueueStepFollowsTheClock : Prop :=
  (∀ s : State, s.pending = [] →
     (s.due = [] → step s = .next s.elapse) ∧
     (∀ e, s.due = [e] → step s = .next { s with pending := [e] }) ∧
     (2 ≤ s.due.length → ∃ e ∈ s.due, step s = .next { s with races := s.races + 1, pending := [e] })) ∧
  (∀ s : State,
     (∀ c : ChanId,
       let k := s.ch c
       let u := s.elapse.ch c
       let tick := k.ms.active.get .captureTick
       (k.pd.sampleIn ≤ 1 → u.pd.histA = pushLast 4 k.pd.histA k.pd.pinA ∧ u.pd.histB = pushLast 4 k.pd.histB k.pd.pinB ∧
         u.pd.sampleIn = k.ms.active.get .filterInterval) ∧
       (1 < k.pd.sampleIn → u.pd.histA = k.pd.histA ∧ u.pd.histB = k.pd.histB ∧ u.pd.sampleIn = k.pd.sampleIn - 1) ∧
       (2 ≤ k.pd.overflow → u.pd.timer = k.pd.timer ∧ u.pd.prescaler = k.pd.prescaler) ∧
       (k.pd.overflow < 2 → k.pd.prescaler + 1 < tick → u.pd.timer = k.pd.timer ∧ u.pd.prescaler = k.pd.prescaler + 1) ∧
       (k.pd.overflow < 2 → tick ≤ k.pd.prescaler + 1 → k.pd.timer < 65535 →
         u.pd.timer = k.pd.timer + 1 ∧ u.pd.prescaler = 0) ∧
       (k.pd.overflow < 2 → tick ≤ k.pd.prescaler + 1 → 65535 ≤ k.pd.timer →
         u.pd.timer = k.pd.timer ∧ u.pd.prescaler = k.pd.prescaler + 1) ∧
       u.pd.watchdog = k.pd.watchdog.map (· - 1) ∧ u.ms.lease = k.ms.lease.map (· - 1) ∧
       u.ms.dwell = k.ms.dwell.map (fun d => { d with timer := d.timer - 1 }) ∧
       u.ms.backoff = k.ms.backoff.map (fun b => { b with timer := b.timer.map (· - 1) }) ∧
       u.out = { k.out with stepIn := k.out.stepIn - 1, pwm := k.out.pwm.map (· + 1) } ∧
       u.ms = { k.ms with lease := u.ms.lease, dwell := u.ms.dwell, backoff := u.ms.backoff } ∧
       u.pd = { k.pd with histA := u.pd.histA, histB := u.pd.histB, sampleIn := u.pd.sampleIn, timer := u.pd.timer,
                          prescaler := u.pd.prescaler, watchdog := u.pd.watchdog } ∧
       u.ee = k.ee ∧ u.rps = k.rps) ∧
     (s.lineSampleIn ≤ 1 → s.elapse.lineSampleIn = 2 ∧
       ∀ l : LineId, s.elapse.lines[l] = { s.lines[l] with hist := pushLast 4 s.lines[l].hist s.lines[l].pin }) ∧
     (1 < s.lineSampleIn → s.elapse.lineSampleIn = s.lineSampleIn - 1 ∧ s.elapse.lines = s.lines) ∧
     s.elapse.supply = { s.supply with sampleIn := s.supply.sampleIn - 1 } ∧
     s.elapse.link = { s.link with gap := s.link.gap.map (· - 1),
                                   sending := s.link.sending.map (fun f => { f with left := f.left - 1 }) } ∧
     s.elapse.clock = (if s.clock.us < 999 then ⟨s.clock.ms, s.clock.us + 1⟩ else ⟨s.clock.ms + 1, 0⟩) ∧
     s.elapse.device = s.device ∧ s.elapse.effort = s.effort ∧ s.elapse.arbiter = s.arbiter ∧ s.elapse.pool = s.pool ∧
     s.elapse.races = s.races ∧ s.elapse.pending = s.pending) ∧
  (∀ s : State,
     (∀ c : ChanId,
       let k := s.ch c
       let a := 3 ≤ (k.pd.histA.filter (fun x => x != k.pd.filtA)).length
       let b := 3 ≤ (k.pd.histB.filter (fun x => x != k.pd.filtB)).length
       (.count c .a ∈ s.due ↔ a ∧ ¬b) ∧ (.count c .b ∈ s.due ↔ b ∧ ¬a) ∧ (.illegalTransition c ∈ s.due ↔ a ∧ b) ∧
       (.intervalTimerOverflow c ∈ s.due ↔
         k.pd.overflow < 2 ∧ 65535 ≤ k.pd.timer ∧ k.ms.active.get .captureTick ≤ k.pd.prescaler) ∧
       (.stallWatchdogExpiry c ∈ s.due ↔ k.pd.watchdog = some 0) ∧
       (.dwellExpiry c ∈ s.due ↔ k.ms.state = .dwell ∧ k.ms.dwell.map DwellRecord.timer = some 0) ∧
       (.backoffTimerExpiry c ∈ s.due ↔ k.ms.state = .backoff ∧ k.ms.backoff.bind BackoffRecord.timer = some 0) ∧
       (.leaseExpiry c ∈ s.due ↔ k.ms.lease = some 0) ∧
       (.rampStep c ∈ s.due ↔ k.out.step.isSome = true ∧ k.out.stepIn = 0) ∧
       (.pwmPeriodBoundary c ∈ s.due ↔ ∃ t, k.out.pwm = some t ∧ 50 ≤ t) ∧
       (.evaluation c ∈ s.due ↔ ∃ q ∈ s.effort.requests, q.chan = c)) ∧
     (∀ l : LineId,
       (.faultLineAssertion l ∈ s.due ↔ s.lines[l].asserted = false ∧ ∀ x ∈ s.lines[l].hist, x = true) ∧
       (.faultLineRelease l ∈ s.due ↔ s.lines[l].asserted = true ∧ ∀ x ∈ s.lines[l].hist, x = false)) ∧
     (∀ mv, .supplySample mv ∈ s.due ↔ s.supply.sampleIn = 0 ∧ mv = s.supply.pin) ∧
     (.commonModeHoldExpiry ∈ s.due ↔ ∃ e, s.effort.hold = some e ∧ (s.clock.ms - e).toNat < 2 ^ 31) ∧
     (.roadLevelStalenessExpiry ∈ s.due ↔ ∃ e, s.effort.staleness = some e ∧ (s.clock.ms - e).toNat < 2 ^ 31) ∧
     (.gapTimerExpiry ∈ s.due ↔ s.link.gap = some 0) ∧
     (.transmitFrameEnd ∈ s.due ↔ ∃ f, s.link.sending = some f ∧ f.left = 0) ∧
     (∀ e ∈ s.due, isRequest e = false ∧ e ≠ .powerOnReset ∧ ∀ b high, e ≠ .serialByteReceived b high))

/-- Every command completes in every state, leaves the queue alone, and leaves a free transmitter only when no reply and no
notice is pending. -/
def Obligations.EveryCommandCompletes : Prop :=
  ∀ (c : Instr) (s : State), ∃ t, exec c s = .next t ∧ t.pending = s.pending ∧
    (t.link.sending = none → t.link.replies = [] ∧ t.link.notices = Notices.empty)

/-! ## Resets -/

/-- What a power-on reset leaves, whatever the state before: parameters, channels, slots, pool and shared state. The Hall
filters show the first sample, taken with the reset (log 32), and the time to a ramp step, without meaning for an idle
ramp, is 0 (log 33). At the first samples after a power-on reset the supply is classified by the plain boundaries, and
each line takes the level its input shows, its latch set where it is found active. -/
def Obligations.PowerOnResetLeaves : Prop :=
  (∀ s : State, ∃ t, exec .powerOnReset s = .next t ∧
     t.device = Device.defaults ∧ t.link.locked = false ∧ t.arbiter = ⟨[], []⟩ ∧ t.effort = ⟨none, 0, none, 0, []⟩ ∧
     t.clock = ⟨0, 0⟩ ∧ t.pool.free = allFree ∧ t.pool.waiting = [] ∧ t.pool.lost = 0 ∧ t.link.replies = [] ∧
     t.link.phase = .hunt ∧ t.link.buffer = [] ∧ t.link.gap = none ∧ t.link.lengthErrors = 0 ∧
     t.link.crcErrors = 0 ∧ t.link.timeouts = 0 ∧ t.link.overruns = 0 ∧
     ∀ c : ChanId,
       (∀ p, (t.ch c).ms.pending.get p = p.row.default) ∧ (∀ p, (t.ch c).ms.active.get p = p.row.default) ∧
       (t.ch c).ms.state = .disabled ∧ (t.ch c).ms.motion = none ∧ (t.ch c).ms.lease = none ∧
       (t.ch c).ms.dwell = none ∧ (t.ch c).ms.backoff = none ∧ (t.ch c).ms.marker = false ∧
       (t.ch c).ms.reversal = 0 ∧ (t.ch c).ms.override = false ∧ (t.ch c).ms.cause = .none ∧ (t.ch c).ms.taint = false ∧
       (t.ch c).pd.position = 0 ∧ (t.ch c).pd.known = false ∧ (t.ch c).pd.timer = 0 ∧ (t.ch c).pd.overflow = 0 ∧
       (t.ch c).pd.ring = [] ∧ (t.ch c).pd.watchdog = none ∧ (t.ch c).pd.confirm = 0 ∧ (t.ch c).pd.difference = 0 ∧
       (t.ch c).pd.travel = 0 ∧
       (t.ch c).pd.histA = List.replicate 4 (s.ch c).pd.pinA ∧ (t.ch c).pd.filtA = (s.ch c).pd.pinA ∧
       (t.ch c).pd.histB = List.replicate 4 (s.ch c).pd.pinB ∧ (t.ch c).pd.filtB = (s.ch c).pd.pinB ∧
       (t.ch c).out = ⟨.off, 0, 0, none, 0, 0, none⟩ ∧
       (t.ch c).rps.cells = Vector.replicate 64 ⟨.empty, 0, 0, 0⟩ ∧
       (t.ch c).rps.scratch = Vector.replicate 64 ⟨0, 0⟩ ∧ (t.ch c).rps.summary = ⟨.none, 0, 0, 0, 0, 0⟩ ∧
       (t.ch c).ee.slots = Vector.replicate 8 ⟨0, .empty⟩ ∧ (t.ch c).ee.top = 0 ∧
       (t.ch c).ee.history = List.replicate 8 false ∧ (t.ch c).ee.summary = ⟨none, none, none, none⟩ ∧
       (t.ch c).ee.sticky = ⟨false, false, false, false, false, false, false⟩ ∧ (t.ch c).ee.lastStep = false ∧
       (t.ch c).ee.lane = none) ∧
  (∀ s : State, ∃ t, exec .powerOnReset s = .next t ∧
     t.supply.hist = [min s.supply.pin 30000] ∧ t.supply.u = min s.supply.pin 30000 ∧
     (t.supply.state = .cutoff ↔ t.supply.u < 6000) ∧
     (t.supply.state = .low ↔ 6000 ≤ t.supply.u ∧ t.supply.u ≤ 8999) ∧
     (t.supply.state = .normal ↔ 9000 ≤ t.supply.u ∧ t.supply.u ≤ 16000) ∧
     (t.supply.state = .high ↔ 16000 < t.supply.u) ∧
     ∀ l : LineId, t.lines[l].hist = List.replicate 4 s.lines[l].pin ∧ t.lines[l].asserted = s.lines[l].pin ∧
       t.lines[l].latch = s.lines[l].pin)

/-- RESET in a valid mode is accepted, locked or not, and its reply arranges the reset; any other mode is refused.
The frame of the RESET reply ends: FULL acts exactly as a power-on reset. -/
def Obligations.FullResetActsAsPowerOn : Prop :=
  (∀ (s : State) (f : Sending) (r : Reply), s.link.sending = some f → f.isReply = true →
     s.link.replies.head? = some r → r.reset = some .full → exec .transmitFrameEnd s = exec .powerOnReset s) ∧
  (∀ (s : State) (tag mode : Byte), s.hearing →
     let arranged := fun (m : ResetMode) => exec (.reset tag mode) s = .next (State.serve { s with link := { s.link with
       replies := s.link.replies ++ [⟨0x92, tag, [0x00, mode], some m⟩] } })
     (mode = 0 → arranged .full) ∧ (mode = 1 → arranged .preserve) ∧
     (1 < mode.toNat → exec (.reset tag mode) s = .next (s.answered 0x92 tag 0x04 [mode])))

/-- The frame of the RESET reply ends: what PRESERVE keeps of every channel and of the part, and what it clears.
Every channel's flags, tags, top pointer, history, summary, lane and outputs are cleared (an idle ramp's time to its next
step is 0, log 33) and its slot values kept. The first samples are taken with the reset (log 32): each line takes the
level its input shows, its latch set where it is found active, and the supply is classified by the plain boundaries. Each
enabled channel that a line found active maps enters FAULT by such a line (by one of several, in an order the manual
leaves open, log 7) and takes one record from the head of the free list, of time 0, with the U of the first supply sample
(log 19); with no such channel all records are free and none is pending. The receiver, the queue, the counters and the
notices are cleared, and what the first samples post the free transmitter begins to send at once (log 6). -/
def Obligations.PreserveResetKeeps : Prop :=
  (∀ (s : State) (f : Sending) (r : Reply), s.link.sending = some f → f.isReply = true →
     s.link.replies.head? = some r → r.reset = some .preserve →
     ∃ t, exec .transmitFrameEnd s = .next t ∧ t.device = s.device ∧ t.link.locked = false ∧ t.arbiter = ⟨[], []⟩ ∧
       t.effort = ⟨none, 0, none, 0, []⟩ ∧ t.clock = ⟨0, 0⟩ ∧ t.pool.lost = 0 ∧ t.link.replies = [] ∧
       ∀ c : ChanId,
         (t.ch c).ms.pending = (s.ch c).ms.pending ∧ (t.ch c).ms.active = (s.ch c).ms.active ∧
         (t.ch c).ms.reversal = (s.ch c).ms.reversal ∧ (t.ch c).ms.override = (s.ch c).ms.override ∧
         (t.ch c).pd.position = (s.ch c).pd.position ∧ (t.ch c).pd.travel = (s.ch c).pd.travel ∧
         (t.ch c).pd.histA = (s.ch c).pd.histA ∧ (t.ch c).pd.histB = (s.ch c).pd.histB ∧
         (t.ch c).pd.filtA = (s.ch c).pd.filtA ∧ (t.ch c).pd.filtB = (s.ch c).pd.filtB ∧
         (t.ch c).pd.known = ((s.ch c).pd.known && !(s.ch c).ms.state.holding) ∧
         (t.ch c).pd.timer = 0 ∧ (t.ch c).pd.overflow = 0 ∧ (t.ch c).pd.ring = [] ∧ (t.ch c).pd.watchdog = none ∧
         (t.ch c).pd.confirm = 0 ∧ (t.ch c).pd.difference = 0 ∧
         (t.ch c).rps.cells = (s.ch c).rps.cells ∧ (t.ch c).rps.summary = (s.ch c).rps.summary ∧
         (t.ch c).rps.scratch = Vector.replicate 64 ⟨0, 0⟩ ∧ (t.ch c).ms.taint = false ∧
         (t.ch c).out.mode = .off ∧ (t.ch c).out.applied = 0 ∧ (t.ch c).out.pwm = none ∧
         (t.ch c).ms.motion = none ∧ (t.ch c).ms.lease = none ∧ (t.ch c).ms.dwell = none ∧
         (t.ch c).ms.backoff = none ∧ (t.ch c).ms.marker = false ∧
         ((s.ch c).ms.state = .disabled → (t.ch c).ms.state = .disabled ∧ (t.ch c).ms.cause = .none) ∧
         ((s.ch c).ms.state ≠ .disabled →
           (∀ l : LineId, s.lines[l].pin = true → inSet s.device.maps[l] c = false) →
           (t.ch c).ms.state = .idle ∧ (t.ch c).ms.cause = .none) ∧
         (∀ l : LineId, (s.ch c).ms.state ≠ .disabled → s.lines[l].pin = true → inSet s.device.maps[l] c = true →
           (t.ch c).ms.state = .fault)) ∧
  (∀ (s : State) (f : Sending) (r : Reply), s.link.sending = some f → f.isReply = true →
     s.link.replies.head? = some r → r.reset = some .preserve →
     let struck := fun (c : ChanId) (l : LineId) => s.lines[l].pin && inSet s.device.maps[l] c
     let faulted := fun c : ChanId => decide ((s.ch c).ms.state ≠ .disabled) && allLines.any (struck c)
     let n := (allChans.filter faulted).length
     ∃ (t : State) (notices : Notices), exec .transmitFrameEnd s = .next t ∧
       (∀ c : ChanId,
         (t.ch c).ee.sticky = ⟨false, false, false, false, false, false, false⟩ ∧ (t.ch c).ee.lastStep = false ∧
         (∀ i : Fin 8, (t.ch c).ee.slots[i] = ⟨(s.ch c).ee.slots[i].value, .empty⟩) ∧ (t.ch c).ee.top = 0 ∧
         (t.ch c).ee.history = List.replicate 8 false ∧ (t.ch c).ee.summary = ⟨none, none, none, none⟩ ∧
         (t.ch c).ee.lane = none ∧ (t.ch c).out = ⟨.off, 0, 0, none, 0, 0, none⟩ ∧
         ((t.ch c).ms.state = .fault ↔ faulted c = true)) ∧
       (∀ l : LineId, t.lines[l] = ⟨s.lines[l].pin, List.replicate 4 s.lines[l].pin, s.lines[l].pin, s.lines[l].pin⟩) ∧
       t.supply.pin = s.supply.pin ∧ t.supply.hist = [min s.supply.pin 30000] ∧ t.supply.u = min s.supply.pin 30000 ∧
       (t.supply.state = .cutoff ↔ t.supply.u < 6000) ∧
       (t.supply.state = .low ↔ 6000 ≤ t.supply.u ∧ t.supply.u ≤ 8999) ∧
       (t.supply.state = .normal ↔ 9000 ≤ t.supply.u ∧ t.supply.u ≤ 16000) ∧
       (t.supply.state = .high ↔ 16000 < t.supply.u) ∧
       t.pool.free = allFree.drop n ∧ t.pool.waiting = allFree.take n ∧
       (∀ r : RecId, n ≤ r.val → t.pool.records[r] = s.pool.records[r]) ∧
       (∀ c : ChanId, faulted c = true → ∃ (r : RecId) (l : LineId), r.val < n ∧ struck c l = true ∧
         (t.ch c).ms.cause = .bridge l ∧ notices.incident[c] = some r ∧
         t.pool.records[r] = ⟨c, .bridge l, 0, (s.ch c).pd.position, (s.ch c).pd.known && !(s.ch c).ms.state.holding,
           zoneAt (s.ch c).ms.active (s.ch c).pd.position, (s.ch c).ms.reversal, t.supply.u, 0, 0, false, none⟩) ∧
       (∀ c : ChanId, faulted c = false → notices.incident[c] = none) ∧ (∀ c : ChanId, notices.motionEnd[c] = none) ∧
       notices.supply = none ∧
       (∀ l : LineId, s.lines[l].pin = true → ∃ j : LineId, s.lines[j].pin = true ∧ notices.faultLine = some (j, true)) ∧
       ((∀ l : LineId, s.lines[l].pin = false) → notices = Notices.empty) ∧
       t.link = Link.serve ⟨.hunt, [], none, [], notices, 8, none, 0, 0, 0, 0, false⟩ ∧
       ((∀ l : LineId, s.lines[l].pin = false) → t.link = ⟨.hunt, [], none, [], notices, 8, none, 0, 0, 0, 0, false⟩))

/-- The state right after reset: every law of the part holds, nothing waits, every channel is DISABLED and every parameter
at its default. -/
def Obligations.LawsHoldAtReset : Prop :=
  State.reset.OutputsLaw ∧ State.reset.FaultLineLaw ∧ State.reset.SlotLaw ∧ State.reset.ArbiterLaw ∧
    State.reset.NoneWaits ∧ State.reset.pool.Partitioned ∧ State.reset.link.Lawful ∧
    State.reset.device = Device.defaults ∧ State.reset.pending = [] ∧
    ∀ c : ChanId, (State.reset.ch c).PositionLaw ∧ (State.reset.ch c).CounterLaw ∧ (State.reset.ch c).ParamLaw ∧
      (State.reset.ch c).WindowLaw ∧ (State.reset.ch c).ProfileLaw ∧ (State.reset.ch c).ms.state = .disabled ∧
      (∀ p, (State.reset.ch c).ms.pending.get p = p.row.default)

/-! ## Laws every step keeps -/

/-- The number of channels holding a drive slot never exceeds the Slot count, which is never below 1 or above 4. -/
def Obligations.SlotsNeverExceedSlotCount : Prop :=
  ∀ s t : State, s.SlotLaw → step s = .next t → t.SlotLaw

/-- Each of the 16 incident records is in exactly one of the free list and the pending list. -/
def Obligations.IncidentRecordsArePartitioned : Prop :=
  ∀ s t : State, s.pool.Partitioned → step s = .next t → t.pool.Partitioned

/-- The holders are the channels in STARTUP, TRAVEL, DWELL and BACKOFF, and the queue is the channels in QUEUED, each
once, with their class, HELD first. No channel waits in the queue while a slot is free and the supply is NORMAL.
The supply history is never empty, at reset and after every step; the second law has it as a premise. -/
def Obligations.ArbiterMatchesChannelStates : Prop :=
  (∀ s t : State, s.ArbiterLaw → step s = .next t → t.ArbiterLaw) ∧
  (∀ s t : State, s.SlotLaw → s.ArbiterLaw → s.NoneWaits → s.supply.hist ≠ [] → step s = .next t → t.NoneWaits) ∧
  (State.reset.supply.hist ≠ [] ∧ ∀ s t : State, s.supply.hist ≠ [] → step s = .next t → t.supply.hist ≠ [])

/-- The output mode of every channel follows its state, and outside a drive the applied duty is 0 and no PWM runs.
While a fault line is asserted, every channel in its map has its outputs OFF: the law, which every step keeps, says so. -/
def Obligations.OutputsFollowStateAndFaultLines : Prop :=
  (∀ s t : State, s.OutputsLaw → step s = .next t → t.OutputsLaw) ∧
  (∀ s t : State, s.FaultLineLaw → s.ArbiterLaw → s.OutputsLaw → step s = .next t →
     t.FaultLineLaw ∧ ∀ (l : LineId) (c : ChanId), t.lines[l].asserted = true → inSet t.device.maps[l] c = true →
       (t.ch c).out.mode = .off)

/-- A KNOWN position always lies within -64 to L+64. -/
def Obligations.KnownPositionStaysInBounds : Prop :=
  ∀ s t : State, (∀ c, (s.ch c).PositionLaw) → step s = .next t → ∀ c, (t.ch c).PositionLaw

/-- A channel's reversal counter never exceeds 7, and its other counters stay in their ranges.
Every slot value of a window lies within -2048 to 2047, and so does its average.
The reply queue never holds more than four replies, and the error counters stop at 65535. -/
def Obligations.CountersStayInRange : Prop :=
  (∀ s t : State, (∀ c, (s.ch c).CounterLaw) → step s = .next t → ∀ c, (t.ch c).CounterLaw) ∧
  (∀ s t : State, (∀ c, (s.ch c).WindowLaw) → step s = .next t →
     ∀ c, (t.ch c).WindowLaw ∧ ∀ a, (t.ch c).ee.average = some a → -2048 ≤ a ∧ a ≤ 2047) ∧
  (∀ s t : State, s.link.Lawful → step s = .next t → t.link.Lawful)

/-- Both sets of every channel keep every parameter in its range, M not above K, and Z_seal ≤ Z_pinch ≤ L. -/
def Obligations.ParameterSetsStayOrdered : Prop :=
  ∀ s t : State, (∀ c, (s.ch c).ParamLaw) → step s = .next t → ∀ c, (t.ch c).ParamLaw

/-- Every VALID profile cell has a reference within 1 to 65535, a count within 1 to 255 and strikes within 0 to 2, and every
EMPTY cell has zeros. -/
def Obligations.ProfileCellsStayLawful : Prop :=
  ∀ s t : State, (∀ c, (s.ch c).ProfileLaw) → step s = .next t → ∀ c, (t.ch c).ProfileLaw

/-! ## The link -/

/-- The receiver takes each byte by its phase; a byte whose stop bit is low is discarded, and a length byte above 48
returns the receiver to HUNT with the gap timer stopped (log 25). A frame that completes with a good CRC is stated in the
two statements that follow. The gap timer expires in mid-frame: the frame is dropped and the timeout counter rises; with
no gap timer running the command has no effect (log 5).
The CRC, byte by byte and bit by bit: 0xFF before the first byte, each byte combined in by exclusive-or and followed by
eight shifts to the left, each of which combines in 0x2F where the bit leaving the top was 1. -/
def Obligations.ReceiverTakesEachByteByPhase : Prop :=
  (∀ (s : State) (b : Byte),
     exec (.serialByteReceived b false) s = .next s.serve ∧
     (s.link.phase = .hunt → b = 0x7E → exec (.serialByteReceived b true) s =
       .next (State.serve { s with link := { s.link with buffer := [], phase := .length, gap := some 1000 } })) ∧
     (s.link.phase = .hunt → b ≠ 0x7E → exec (.serialByteReceived b true) s = .next s.serve) ∧
     (s.link.phase = .length → b.toNat ≤ 48 → exec (.serialByteReceived b true) s =
       .next (State.serve { s with link := { s.link with buffer := [b], phase := .body, gap := some 1000 } })) ∧
     (s.link.phase = .length → 48 < b.toNat → exec (.serialByteReceived b true) s =
       .next (State.serve { s with link := { s.link with
         phase := .hunt, gap := none, lengthErrors := min 65535 (s.link.lengthErrors + 1) } })) ∧
     (∀ (n : Byte) (stored : List Byte), s.link.phase = .body → s.link.buffer = n :: stored →
       stored.length + 1 < n.toNat + 2 → exec (.serialByteReceived b true) s =
         .next (State.serve { s with link := { s.link with
           buffer := n :: stored ++ [b], phase := .body, gap := some 1000 } })) ∧
     (∀ (n : Byte) (stored : List Byte), s.link.phase = .body → s.link.buffer = n :: stored →
       stored.length + 1 = n.toNat + 2 → exec (.serialByteReceived b true) s =
         .next (State.serve { s with link := { s.link with
           buffer := n :: stored ++ [b], phase := .check, gap := some 1000 } })) ∧
     (s.link.phase = .check → b ≠ crc s.link.buffer → exec (.serialByteReceived b true) s =
       .next (State.serve { s with link := { s.link with
         phase := .hunt, gap := none, crcErrors := min 65535 (s.link.crcErrors + 1) } }))) ∧
  (∀ s : State,
     (s.link.gap.isSome = true → s.link.phase ≠ .hunt → exec .gapTimerExpiry s =
       .next (State.serve { s with link := { s.link with
         phase := .hunt, gap := none, timeouts := min 65535 (s.link.timeouts + 1) } })) ∧
     (s.link.gap = none → exec .gapTimerExpiry s = .next s.serve)) ∧
  (let shift : Byte → Byte := fun r => if r.getLsbD 7 = true then (r <<< 1) ^^^ 0x2F else r <<< 1
   crc [] = 0xFF ∧ ∀ (bs : List Byte) (b : Byte), crc (bs ++ [b]) = Nat.iterate shift 8 (crc bs ^^^ b))

/-- A good frame of each of the nineteen request types acts as the request it spells: the receiver back in HUNT with its
gap timer stopped. -/
def Obligations.GoodFrameActsAsItsRequest : Prop :=
  ∀ (s : State) (n tag : Byte), s.link.phase = .check →
    let received := fun (type : Byte) (payload : List Byte) (i : Instr) =>
      s.link.buffer = n :: type :: tag :: payload →
        exec (.serialByteReceived (crc s.link.buffer) true) s =
          exec i { s with link := { s.link with phase := .hunt, gap := none } }
    received 0x01 [] (.identify tag) ∧
    (∀ i c v0 v1, received 0x02 [i, c, v0, v1] (.configure tag i c (word16 v0 v1))) ∧
    (∀ i c, received 0x03 [i, c] (.readParameter tag i c)) ∧
    (∀ set k d t0 t1, received 0x04 [set, k, d, t0, t1] (.move tag set k d (word16 t0 t1))) ∧
    (∀ set, received 0x05 [set] (.stop tag set)) ∧
    (∀ l v0 v1, received 0x06 [l, v0, v1] (.vehicleState tag l (word16 v0 v1))) ∧
    (∀ c, received 0x07 [c] (.channelStatus tag c)) ∧
    (∀ c, received 0x08 [c] (.readWindow tag c)) ∧
    (∀ c, received 0x09 [c] (.clearConditions tag c)) ∧
    (∀ c, received 0x0A [c] (.clearFault tag c)) ∧
    (∀ c g, received 0x0B [c, g] (.profileRead tag c g)) ∧
    (∀ c g images, images.length = 40 → received 0x0C (c :: g :: images) (.profileLoad tag c g (imagesOf images))) ∧
    (∀ c p0 p1 t0 t1 r, received 0x0D [c, p0, p1, t0, t1, r]
      (.channelRestore tag c (word16 p0 p1) (word16 t0 t1) r)) ∧
    (∀ c, received 0x0E [c] (.channelDefaults tag c)) ∧
    received 0x0F [] (.incidentRead tag) ∧
    (∀ i, received 0x10 [i] (.incidentRelease tag i)) ∧
    received 0x11 [] (.lock tag) ∧
    (∀ m, received 0x12 [m] (.reset tag m)) ∧
    received 0x13 [] (.deviceStatus tag)

/-- A good frame of an unknown type is answered UNKNOWN_TYPE, and one whose payload has not the length of its type is answered
BAD_LENGTH; each reply holds the status alone.
A request that finds four replies in the queue is dropped with an overrun, and one that completes while a reset is awaited
is discarded without a counter change; neither has any other effect. -/
def Obligations.FramesTurnedAway : Prop :=
  (∀ (s : State) (n type tag : Byte) (payload : List Byte), s.hearing → s.link.phase = .check →
     s.link.buffer = n :: type :: tag :: payload →
     let s0 : State := { s with link := { s.link with phase := .hunt, gap := none } }
     (type.toNat = 0 ∨ 0x13 < type.toNat →
       exec (.serialByteReceived (crc s.link.buffer) true) s = .next (s0.answered (type + 0x80) tag 0x01 [])) ∧
     (∀ m, [(0x01, 0), (0x02, 4), (0x03, 2), (0x04, 5), (0x05, 1), (0x06, 3), (0x07, 1), (0x08, 1), (0x09, 1), (0x0A, 1),
         (0x0B, 2), (0x0C, 42), (0x0D, 6), (0x0E, 1), (0x0F, 0), (0x10, 1), (0x11, 0), (0x12, 1),
         (0x13, 0)].lookup type.toNat = some m → payload.length ≠ m →
       exec (.serialByteReceived (crc s.link.buffer) true) s = .next (s0.answered (type + 0x80) tag 0x02 []))) ∧
  (∀ (i : Instr) (s : State), isRequest i = true →
     (s.link.resetAwaited = false → 4 ≤ s.link.replies.length → exec i s =
       .next (State.serve { s with link := { s.link with overruns := min 65535 (s.link.overruns + 1) } })) ∧
     (s.link.resetAwaited = true → exec i s = .next s.serve))

/-- The transmitter: a frame once begun goes on; a free transmitter takes the oldest reply, in (n + 5) × 40 µs; with
neither reply nor notice pending it stays free. A reply leaves the queue at the end of its last byte, and a notice's frame
leaves the queue alone.
A frame on the line is the start byte, the payload length, the type, the tag, the payload and the CRC over all of these
but the start byte; fields of two and four bytes travel least significant byte first, signed ones in two's complement. -/
def Obligations.TransmitterSendsOneFrameAtATime : Prop :=
  (∀ s : State,
     (∀ f, s.link.sending = some f → s.serve = s) ∧
     (∀ r rest, s.link.sending = none → s.link.replies = r :: rest → s.serve = { s with link := { s.link with
       sending := some ⟨true, wireFrame r.type r.tag r.payload, (r.payload.length + 5) * 40⟩ } }) ∧
     (s.link.sending = none → s.link.replies = [] → s.link.notices = Notices.empty → s.serve = s)) ∧
  (∀ (s : State) (f : Sending), s.link.sending = some f →
     (∀ r rest, f.isReply = true → s.link.replies = r :: rest → r.reset = none → exec .transmitFrameEnd s =
       .next (State.serve { s with link := { s.link with sending := none, replies := rest } })) ∧
     (f.isReply = false → exec .transmitFrameEnd s =
       .next (State.serve { s with link := { s.link with sending := none } }))) ∧
  (∀ (type tag : Byte) (payload : List Byte) (n : Nat) (i : Int),
     wireFrame type tag payload = [0x7E, BitVec.ofNat 8 payload.length, type, tag] ++ payload ++
       [crc ([BitVec.ofNat 8 payload.length, type, tag] ++ payload)] ∧
     (wireFrame type tag payload).length = payload.length + 5 ∧
     le16 n = [BitVec.ofNat 8 n, BitVec.ofNat 8 (n / 256)] ∧
     le32 n = [BitVec.ofNat 8 n, BitVec.ofNat 8 (n / 256), BitVec.ofNat 8 (n / 65536), BitVec.ofNat 8 (n / 16777216)] ∧
     leInt16 i = [BitVec.ofInt 8 i, BitVec.ofInt 8 (i / 256)])

/-- The search for a notice begins at the position after the last-served one, stops at the first that holds an entry, and
takes the entry of the lower type value; that position becomes the last-served one. After a reset it is 8. -/
def Obligations.NoticesAreServedInTurn : Prop :=
  State.reset.link.lastServed = 8 ∧
  ∀ (s : State) (p : Fin 9), s.link.sending = none → s.link.replies = [] → s.link.notices.occupied p = true →
    (∀ q : Fin 9, (q - s.link.lastServed - 1 : Fin 9) < p - s.link.lastServed - 1 → s.link.notices.occupied q = false) →
    let began := fun (bytes : List Byte) (rest : Notices) => s.serve = { s with link := { s.link with
      sending := some ⟨false, bytes, bytes.length * 40⟩, notices := rest, lastServed := p } }
    (∀ (c : ChanId) m, p.val = c.val → s.link.notices.motionEnd[c] = some m →
      began (wireFrame 0x41 0 ([byteOf c.val, m.result.code] ++ leInt16 m.position ++ [byteOf (bit m.known)]))
        { s.link.notices with motionEnd := s.link.notices.motionEnd.set c none }) ∧
    (∀ (c : ChanId) r, p.val = c.val → s.link.notices.motionEnd[c] = none → s.link.notices.incident[c] = some r →
      began (wireFrame 0x42 0 [byteOf c.val, byteOf r.val])
        { s.link.notices with incident := s.link.notices.incident.set c none }) ∧
    (∀ (l : LineId) level, p.val = 8 → s.link.notices.faultLine = some (l, level) →
      began (wireFrame 0x43 0 [byteOf l.val, byteOf (bit level)]) { s.link.notices with faultLine := none }) ∧
    (∀ st u, p.val = 8 → s.link.notices.faultLine = none → s.link.notices.supply = some (st, u) →
      began (wireFrame 0x44 0 ([st.code] ++ le16 u)) { s.link.notices with supply := none })

/-! ## Requests to the part -/

/-- IDENTIFY returns the seven identity bytes and changes nothing but the reply queue. -/
def Obligations.IdentifyAnswersTheIdentity : Prop :=
  ∀ (s : State) (tag : Byte), s.hearing → exec (.identify tag) s = .next (s.answered 0x81 tag 0x00 [1, 8, 1, 8, 4, 48, 4])

/-- DEVICE_STATUS returns the snapshot of the device, laid out as the manual says, bits without a name 0 (log 38), and
changes nothing. -/
def Obligations.DeviceStatusSnapshot : Prop :=
  ∀ (s : State) (tag : Byte), s.hearing → s.arbiter.queue.length ≤ 8 →
    let line := fun (l : LineId) => bit s.lines[l].asserted * 2 ^ l.val + bit s.lines[l].latch * 2 ^ (l.val + 4)
    exec (.deviceStatus tag) s = .next (s.answered 0x93 tag 0x00
      ([s.supply.state.code] ++ le16 s.supply.u ++ [byteOf (bit s.link.locked)] ++
        [byteOf (line 0 + line 1 + line 2 + line 3)] ++
        [byteOf s.device.slotCount, setOfChans s.arbiter.holders, byteOf s.arbiter.queue.length] ++
        s.arbiter.queue.map (fun e => byteOf (e.chan.val + 128 * bit e.held)) ++
        List.replicate (8 - s.arbiter.queue.length) 0 ++ [byteOf s.effort.road] ++
        [byteOf (bit s.effort.staleness.isSome + 2 * bit s.effort.hold.isSome)] ++ le16 s.effort.speed.toNat ++
        [byteOf s.pool.waiting.length, byteOf s.pool.lost] ++ le16 s.link.lengthErrors ++ le16 s.link.crcErrors ++
        le16 s.link.timeouts ++ le16 s.link.overruns ++ le32 s.clock.ms.toNat))

/-- LOCK sets the lock flag; with it set, CONFIGURE of a safety or device-wide parameter, CHANNEL_DEFAULTS and PROFILE_LOAD,
past their earlier checks, are refused with LOCKED and change nothing. -/
def Obligations.LockProtects : Prop :=
  ∀ (s : State) (tag : Byte), s.hearing →
    exec (.lock tag) s = .next (State.answered { s with link := { s.link with locked := true } } 0x91 tag 0x00 []) ∧
    (s.link.locked = true → ∀ (c : ChanId) (ch : Byte), ch.toNat = c.val →
      (∀ (p : ChanParam) (ident : Byte) (value : Word16), ident.toNat = p.row.ident → p.row.safety = true →
        p.row.range.admits value.toNat = true → exec (.configure tag ident ch value) s =
          .next (s.answered 0x82 tag 0x06 ([ident, ch] ++ le16 ((s.ch c).ms.pending.get p)))) ∧
      (∀ (p : DevParam) (ident : Byte) (value : Word16), ident.toNat = p.ident → exec (.configure tag ident ch value) s =
        .next (s.answered 0x82 tag 0x06 ([ident, ch] ++ le16 (s.device.get p)))) ∧
      exec (.channelDefaults tag ch) s = .next (s.answered 0x8E tag 0x06 [ch]) ∧
      (∀ (seg : Byte) (cells : List CellImage), seg.toNat < 8 → cells.length = 8 →
        (∀ i ∈ cells, i.stateCode = 0 ∨ i.stateCode = 1) →
        exec (.profileLoad tag ch seg cells) s = .next (s.answered 0x8C tag 0x06 [ch, seg])))

/-- VEHICLE_STATE takes the road level, held to 7, and the speed, and restarts the staleness timer.
The expiry of the road level's staleness timer sets the road level to 0 and keeps the speed; the expiry of the
common-mode hold makes it inactive. Nothing else changes but the transmitter. -/
def Obligations.VehicleStateAndSharedTimers : Prop :=
  (∀ (s : State) (tag level : Byte) (speed : Word16), s.hearing → exec (.vehicleState tag level speed) s =
     .next (State.answered { s with effort := { s.effort with
       road := min 7 level.toNat
       speed := speed
       staleness := some (s.clock.ms + BitVec.ofNat 32 s.device.roadStaleness) } }
       0x86 tag 0x00 (byteOf (min 7 level.toNat) :: le16 speed.toNat))) ∧
  (∀ s : State,
     (s.effort.staleness.isSome = true → exec .roadLevelStalenessExpiry s =
       .next (State.serve { s with effort := { s.effort with road := 0, staleness := none } })) ∧
     exec .commonModeHoldExpiry s = .next (State.serve { s with effort := { s.effort with hold := none } }))

/-- INCIDENT_READ returns the number of pending records, the lost count and the oldest pending record, bits without a name
0 (log 38); it changes nothing. INCIDENT_RELEASE by the identifier: above 15, in the free list, or pending; a released
record joins the tail of the free list, and nothing else changes.
The bytes of a record from byte 16 on, by its cause: the line of a BRIDGE, the condition of a CONDITION, and for a pinch
or an override stop the presence bits with the tag of X (bits 6 and 7 of that byte without a name and 0, log 38), k, X, A
and T_eff with 0 for an absent field, the eight slot values and their tags, and the history. The codes of causes,
conditions and zones. -/
def Obligations.IncidentReadAndRelease : Prop :=
  (∀ (s : State) (tag : Byte), s.hearing →
     (s.pool.waiting = [] → exec (.incidentRead tag) s = .next (s.answered 0x8F tag 0x00 [0, byteOf s.pool.lost])) ∧
     (∀ r rest, s.pool.waiting = r :: rest →
       let i := s.pool.records[r]
       exec (.incidentRead tag) s = .next (s.answered 0x8F tag 0x00
         ([byteOf (rest.length + 1), byteOf s.pool.lost, byteOf r.val, byteOf i.chan.val, i.cause.code] ++
           le32 i.time.toNat ++ leInt16 i.position ++ [byteOf (bit i.known + 2 * i.zone.code + 8 * bit i.hold)] ++
           [byteOf i.reversal] ++ le16 i.u ++ le16 i.applied ++ [byteOf i.road] ++ i.tail)))) ∧
  (∀ (s : State) (tag ident : Byte), s.hearing →
     (15 < ident.toNat → exec (.incidentRelease tag ident) s = .next (s.answered 0x90 tag 0x04 [ident])) ∧
     (∀ r : RecId, ident.toNat = r.val →
       (r ∉ s.pool.waiting → exec (.incidentRelease tag ident) s = .next (s.answered 0x90 tag 0x0D [ident])) ∧
       (r ∈ s.pool.waiting → exec (.incidentRelease tag ident) s =
         .next (State.answered { s with pool := { s.pool with
           waiting := s.pool.waiting.erase r, free := s.pool.free ++ [r] } } 0x90 tag 0x00 [ident])))) ∧
  (∀ (i : Incident) (e : Evidence) (slot : Fin 8 → Slot) (past : Fin 8 → Bool),
     let tagCode : SlotTag → Nat := fun g => match g with | .empty => 0 | .valid => 1 | .neutral => 2
     let m := e.summary
     let presence := bit m.x.isSome + 2 * bit m.a.isSome + 4 * bit m.teff.isSome + 8 * bit m.k.isSome
     let x : Int × Nat := match m.x with | some (v, g) => (v, tagCode g) | none => (0, 0)
     let tags := fun j : Fin 8 => tagCode (slot j).tag
     (∀ l, i.cause = .bridge l → i.tail = [byteOf l.val]) ∧
     (∀ y, i.cause = .condition y → i.tail = [y.code]) ∧
     (i.cause = .pinchEffort ∨ i.cause = .pinchHard ∨ i.cause = .pinchStall ∨ i.cause = .overrideStop →
       i.evidence = some e → e.slots = (List.finRange 8).map slot → e.history = (List.finRange 8).map past →
       i.tail = [byteOf (presence + 16 * x.2), byteOf ((m.k.map Fin.val).getD 0)] ++ leInt16 x.1 ++
         leInt16 (m.a.getD 0) ++ le16 (m.teff.getD 0) ++ (List.finRange 8).flatMap (fun j => leInt16 (slot j).value) ++
         [byteOf (tags 0 + 4 * tags 1 + 16 * tags 2 + 64 * tags 3),
          byteOf (tags 4 + 4 * tags 5 + 16 * tags 6 + 64 * tags 7),
          byteOf (bit (past 0) + 2 * bit (past 1) + 4 * bit (past 2) + 8 * bit (past 3) + 16 * bit (past 4) +
            32 * bit (past 5) + 64 * bit (past 6) + 128 * bit (past 7))] ∧ i.tail.length = 27)) ∧
  ((∀ (l : LineId) (y : Condition), [IncidentCause.pinchEffort, .pinchHard, .pinchStall, .overrideStop, .bridge l,
     .condition y].map IncidentCause.code = [0, 1, 2, 3, 4, 5]) ∧
   [Condition.supplyRange, .lowDrive, .periodOverflow, .noReference, .effortSat, .glitch, .drift].map Condition.code =
     [0, 1, 2, 3, 4, 5, 6] ∧
   [Zone.seal, .pinch, .upper].map Zone.code = [0, 1, 2])

/-! ## Requests to one channel -/

/-- A request that needs a channel number and carries one above 7 is refused with BAD_CHANNEL and changes nothing; a
CONFIGURE or READ_PARAMETER needs one for a per-channel identifier. The refused READ_PARAMETER echoes identifier and
channel without a value (log 28). -/
def Obligations.BadChannelIsRefused : Prop :=
  ∀ (s : State) (tag ch : Byte), s.hearing → 8 ≤ ch.toNat →
    (∀ (p : ChanParam) (ident : Byte) (value : Word16), ident.toNat = p.row.ident →
      exec (.configure tag ident ch value) s = .next (s.answered 0x82 tag 0x03 [ident, ch, 0, 0]) ∧
      exec (.readParameter tag ident ch) s = .next (s.answered 0x83 tag 0x03 [ident, ch])) ∧
    exec (.channelStatus tag ch) s = .next (s.answered 0x87 tag 0x03 [ch]) ∧
    exec (.readWindow tag ch) s = .next (s.answered 0x88 tag 0x03 [ch]) ∧
    exec (.clearConditions tag ch) s = .next (s.answered 0x89 tag 0x03 [ch]) ∧
    exec (.clearFault tag ch) s = .next (s.answered 0x8A tag 0x03 [ch]) ∧
    (∀ seg, exec (.profileRead tag ch seg) s = .next (s.answered 0x8B tag 0x03 [ch, seg])) ∧
    (∀ seg cells, cells.length = 8 → exec (.profileLoad tag ch seg cells) s = .next (s.answered 0x8C tag 0x03 [ch, seg])) ∧
    (∀ p t r, exec (.channelRestore tag ch p t r) s = .next (s.answered 0x8D tag 0x03 [ch])) ∧
    exec (.channelDefaults tag ch) s = .next (s.answered 0x8E tag 0x03 [ch])

/-- CHANNEL_STATUS returns the snapshot of the channel, laid out as the manual says, bits without a name 0 (log 38), and
sets the difference counter to 0 in the same instant; nothing else changes. -/
def Obligations.ChannelStatusSnapshot : Prop :=
  ∀ (s : State) (tag ch : Byte) (c : ChanId), s.hearing → ch.toNat = c.val →
    let k := s.ch c
    let l := k.ms.active.get .travelLength
    let z := k.ms.pending.get .zSeal
    exec (.channelStatus tag ch) s =
      .next (State.answered (s.setCh c { k with pd := { k.pd with difference := 0 } }) 0x87 tag 0x00
        ([ch, k.ms.state.code, k.ms.cause.code, k.ms.cause.detail] ++ leInt16 k.pd.position ++
          [byteOf (bit k.pd.known)] ++ leInt16 k.pd.difference ++ le16 k.pd.travel ++ [k.out.mode.code] ++
          le16 k.out.applied ++ [k.ee.sticky.byte] ++
          [byteOf (bit k.ee.lastStep + 2 * bit k.ms.taint + 4 * bit k.ms.override), byteOf k.ms.reversal] ++
          [byteOf (bit (profileComplete k.rps.cells l z)), byteOf (fillProgress k.rps.cells l z),
            byteOf (requiredCount l z)] ++
          [k.rps.summary.outcome.code, byteOf k.rps.summary.firstFilled, byteOf k.rps.summary.inBand,
            byteOf k.rps.summary.struck, byteOf k.rps.summary.reanchored, byteOf k.rps.summary.gapFilled]))

/-- A cell is required from floor(Z_seal / Wc) to the lesser of 63 and floor(L / Wc), with Wc = ceil(L / 64); a profile is
complete when every required cell is VALID, and its fill progress is the number of them that are. -/
def Obligations.ProfileCompleteness : Prop :=
  ∀ (cells : Vector Cell 64) (l z : Nat), 64 ≤ l →
    let wc := (l + 63) / 64
    (profileComplete cells l z = true ↔
      ∀ i : Fin 64, z / wc ≤ i.val → i.val ≤ min 63 (l / wc) → cells[i].state = .valid) ∧
    (profileComplete cells l z = true ↔ fillProgress cells l z = requiredCount l z) ∧
    requiredCount l z = min 63 (l / wc) + 1 - z / wc ∧
    (fillProgress cells l z : Int) = ((List.finRange 64).countP (fun i : Fin 64 =>
      decide (z / wc ≤ i.val ∧ i.val ≤ min 63 (l / wc) ∧ cells[i].state = .valid)) : Nat)

/-- READ_WINDOW returns the snapshot of the window, newest slot first, byte by byte in the order of Table 11-1's fields
(log 17), bits without a name 0 (log 38); it changes nothing. W and A read 0 when the window is not full. -/
def Obligations.ReadWindowSnapshot : Prop :=
  ∀ (s : State) (tag ch : Byte) (c : ChanId), s.hearing → ch.toNat = c.val →
    let e := (s.ch c).ee
    let slot := fun i : Fin 8 => e.slots[e.top - i]
    let full := (List.finRange 8).all (fun i => (slot i).tag != .empty)
    let w : Int := (slot 0).value + (slot 1).value + (slot 2).value + (slot 3).value + (slot 4).value +
      (slot 5).value + (slot 6).value + (slot 7).value
    exec (.readWindow tag ch) s = .next (s.answered 0x88 tag 0x00
      ([ch, byteOf e.top.val, byteOf (bit full)] ++ leInt16 (if full then w else 0) ++
        leInt16 (if full then w.fdiv 8 else 0) ++ (List.finRange 8).flatMap (fun i => leInt16 (slot i).value) ++
        le16 ((slot 0).tag.code + 4 * (slot 1).tag.code + 16 * (slot 2).tag.code + 64 * (slot 3).tag.code +
          256 * (slot 4).tag.code + 1024 * (slot 5).tag.code + 4096 * (slot 6).tag.code + 16384 * (slot 7).tag.code) ++
        [historyByte e.history, e.summary.presence] ++ e.summary.fields))

/-- CLEAR_CONDITIONS clears the seven sticky flags of the channel, in every channel state, locked or not, and leaves everything
else; a channel number above 7 is refused with BAD_CHANNEL. -/
def Obligations.ClearConditionsClearsStickyFlags : Prop :=
  ∀ (s : State) (tag ch : Byte), s.hearing →
    (8 ≤ ch.toNat → exec (.clearConditions tag ch) s = .next (s.answered 0x89 tag 0x03 [ch])) ∧
    (∀ c : ChanId, ch.toNat = c.val → exec (.clearConditions tag ch) s = .next (State.answered
      (s.setCh c { s.ch c with ee := { (s.ch c).ee with
        sticky := ⟨false, false, false, false, false, false, false⟩ } }) 0x89 tag 0x00 [ch]))

/-- CLEAR_FAULT: refused with FAULTED while an asserted line maps the channel; otherwise a channel in FAULT enters IDLE with
its cause gone and its lane cleared, and the latches of the lines that map it are judged; in every other state it has no
effect. -/
def Obligations.ClearFaultReturnsToIdle : Prop :=
  ∀ (s : State) (tag ch : Byte) (c : ChanId), s.hearing → ch.toNat = c.val →
    ((s.ch c).ms.state ≠ .fault → exec (.clearFault tag ch) s = .next (s.answered 0x8A tag 0x00 [ch])) ∧
    (∀ l : LineId, (s.ch c).ms.state = .fault → s.lines[l].asserted = true → inSet s.device.maps[l] c = true →
      exec (.clearFault tag ch) s = .next (s.answered 0x8A tag 0x0B [ch])) ∧
    ((s.ch c).ms.state = .fault → (∀ l : LineId, s.lines[l].asserted = true → inSet s.device.maps[l] c = false) →
      ∃ t, exec (.clearFault tag ch) s = .next t ∧
        (t.ch c).ms.state = .idle ∧ (t.ch c).ms.cause = .none ∧ (t.ch c).ee.lane = none ∧ (t.ch c).out.mode = .off ∧
        (t.ch c).pd.position = (s.ch c).pd.position ∧ (t.ch c).pd.known = (s.ch c).pd.known ∧
        (t.ch c).ee.sticky = (s.ch c).ee.sticky ∧ (t.ch c).ms.reversal = (s.ch c).ms.reversal ∧
        (t.ch c).rps = (s.ch c).rps ∧ (t.ch c).ms.pending = (s.ch c).ms.pending ∧
        (t.ch c).ms.active = (s.ch c).ms.active ∧
        s.SameOthers t c ∧ t.pool = s.pool ∧ t.arbiter = s.arbiter ∧ t.device = s.device ∧ t.effort = s.effort ∧
        t.supply = s.supply ∧ t.clock = s.clock ∧
        t.link.replies = s.link.replies ++ [⟨0x8A, tag, [0x00, ch], none⟩] ∧ t.link.notices = s.link.notices ∧
        ∀ l : LineId,
          t.lines[l].pin = s.lines[l].pin ∧ t.lines[l].hist = s.lines[l].hist ∧
          t.lines[l].asserted = s.lines[l].asserted ∧
          (t.lines[l].latch = true ↔ s.lines[l].latch = true ∧ ¬(s.lines[l].asserted = false ∧
            inSet s.device.maps[l] c = true ∧
            ∀ d : ChanId, inSet s.device.maps[l] d = true → (t.ch d).ms.state ≠ .fault)))

/-- PROFILE_READ refuses a segment above 7, and otherwise returns L, the End mode and the eight cells; it changes nothing.
PROFILE_LOAD: its refusals in order, and an accepted load, which replaces the eight cells by the images as taken and
changes nothing else. -/
def Obligations.ProfileReadAndLoad : Prop :=
  (∀ (s : State) (tag ch seg : Byte) (c : ChanId), s.hearing → ch.toNat = c.val →
     (8 ≤ seg.toNat → exec (.profileRead tag ch seg) s = .next (s.answered 0x8B tag 0x04 [ch, seg])) ∧
     (∀ g : Fin 8, seg.toNat = g.val → exec (.profileRead tag ch seg) s = .next (s.answered 0x8B tag 0x00
       ([ch, seg] ++ le16 ((s.ch c).ms.active.get .travelLength) ++ [byteOf ((s.ch c).ms.active.get .endMode)] ++
         (List.finRange 8).flatMap (fun i => ((s.ch c).rps.cells[8 * g.val + i.val]).image))))) ∧
  (∀ (s : State) (tag ch seg : Byte) (images : List CellImage) (c : ChanId), s.hearing → ch.toNat = c.val →
     images.length = 8 →
     let known := ∀ i ∈ images, i.stateCode = 0 ∨ i.stateCode = 1
     let resting := (s.ch c).ms.state = .idle ∨ (s.ch c).ms.state = .disabled ∨ (s.ch c).ms.state = .fault
     let refused := fun (st : Byte) => exec (.profileLoad tag ch seg images) s = .next (s.answered 0x8C tag st [ch, seg])
     let taken := fun (i : CellImage) => if i.stateCode = 1 then
         (⟨.valid, max 1 i.reference.toNat, max 1 (min i.count.toNat 255), min 2 i.strikes.toNat⟩ : Cell)
       else ⟨.empty, 0, 0, 0⟩
     (8 ≤ seg.toNat → refused 0x04) ∧ (seg.toNat < 8 → ¬known → refused 0x04) ∧
     (seg.toNat < 8 → known → s.link.locked = true → refused 0x06) ∧
     (seg.toNat < 8 → known → s.link.locked = false → ¬resting → refused 0x05) ∧
     (seg.toNat < 8 → known → s.link.locked = false → resting →
       ∃ cells : Vector Cell 64,
         (∀ k : Fin 64, k.val / 8 ≠ seg.toNat → cells[k] = (s.ch c).rps.cells[k]) ∧
         (∀ (k : Fin 64) i, k.val / 8 = seg.toNat → images[k.val % 8]? = some i → cells[k] = taken i) ∧
         exec (.profileLoad tag ch seg images) s = .next (State.answered
           (s.setCh c { s.ch c with rps := { (s.ch c).rps with cells := cells } }) 0x8C tag 0x00
           ([ch, seg] ++ images.flatMap (fun i => (taken i).image)))))

/-- CHANNEL_RESTORE: refused for a DISABLED channel and outside IDLE and FAULT; otherwise the position becomes KNOWN at the
value taken, the travel and reversal counters take theirs, and the override flag is judged. Nothing else changes.
CHANNEL_DEFAULTS of an unlocked part: refused outside IDLE and FAULT; otherwise the pending set takes the defaults but for
Enable, Travel length and End mode, the sticky flags are cleared and the window emptied. Nothing else changes. -/
def Obligations.ChannelRestoreAndDefaults : Prop :=
  (∀ (s : State) (tag ch : Byte) (position travel : Word16) (reversal : Byte) (c : ChanId),
     s.hearing → ch.toNat = c.val →
     let k := s.ch c
     let refused := fun (st : Byte) =>
       exec (.channelRestore tag ch position travel reversal) s = .next (s.answered 0x8D tag st [ch])
     (k.ms.state = .disabled → refused 0x0E) ∧
     (k.ms.state ≠ .disabled → k.ms.state ≠ .idle → k.ms.state ≠ .fault → refused 0x05) ∧
     (k.ms.state = .idle ∨ k.ms.state = .fault →
       let p := min position.toNat (k.ms.active.get .travelLength)
       let r := min reversal.toNat 7
       exec (.channelRestore tag ch position travel reversal) s = .next (State.answered
         (s.setCh c { k with
           pd := { k.pd with position := p, known := true, travel := travel.toNat }
           ms := { k.ms with reversal := r, override := decide (k.ms.active.get .reversalLimit ≤ r) } })
         0x8D tag 0x00 ([ch] ++ le16 p ++ le16 travel.toNat ++ [byteOf r])))) ∧
  (∀ (s : State) (tag ch : Byte) (c : ChanId), s.hearing → ch.toNat = c.val → s.link.locked = false →
     let k := s.ch c
     (k.ms.state ≠ .idle → k.ms.state ≠ .fault → exec (.channelDefaults tag ch) s =
       .next (s.answered 0x8E tag 0x05 [ch])) ∧
     (k.ms.state = .idle ∨ k.ms.state = .fault → ∃ ps : ParamSet,
       (∀ p : ChanParam, p ≠ .enable → p ≠ .travelLength → p ≠ .endMode → p ≠ .zPinch → ps.get p = p.row.default) ∧
       ps.get .enable = k.ms.pending.get .enable ∧ ps.get .travelLength = k.ms.pending.get .travelLength ∧
       ps.get .endMode = k.ms.pending.get .endMode ∧ ps.get .zPinch = min 320 (k.ms.pending.get .travelLength) ∧
       exec (.channelDefaults tag ch) s = .next (State.answered
         (s.setCh c { k with
           ee := { k.ee with slots := k.ee.slots.map (fun sl => ⟨sl.value, .empty⟩), top := 0,
                             sticky := ⟨false, false, false, false, false, false, false⟩,
                             summary := ⟨none, none, none, none⟩, history := List.replicate 8 false }
           ms := { k.ms with pending := ps } }) 0x8E tag 0x00 [ch])))

/-- READ_PARAMETER returns the pending value of a per-channel parameter and the value in force of a device-wide one,
refuses an unknown identifier, echoing identifier and channel without a value (log 28), and changes nothing. -/
def Obligations.ReadParameterReturnsTheValue : Prop :=
  ∀ (s : State) (tag ident ch : Byte), s.hearing →
    ((∀ p : ChanParam, ident.toNat ≠ p.row.ident) → (∀ p : DevParam, ident.toNat ≠ p.ident) →
      exec (.readParameter tag ident ch) s = .next (s.answered 0x83 tag 0x04 [ident, ch])) ∧
    (∀ (p : ChanParam) (c : ChanId), ident.toNat = p.row.ident → ch.toNat = c.val →
      exec (.readParameter tag ident ch) s =
        .next (s.answered 0x83 tag 0x00 ([ident, ch] ++ le16 ((s.ch c).ms.pending.get p)))) ∧
    (∀ p : DevParam, ident.toNat = p.ident →
      exec (.readParameter tag ident ch) s = .next (s.answered 0x83 tag 0x00 ([ident, ch] ++ le16 (s.device.get p))))

/-! ## CONFIGURE -/

/-- The refusals of a CONFIGURE by the order of its checks, each with the pending value, or 0 where none exists. A refused
CONFIGURE changes nothing. -/
def Obligations.ConfigureRefusalsInOrder : Prop :=
  ∀ (s : State) (tag ident ch : Byte) (value : Word16), s.hearing →
    let refused := fun (st : Byte) (v : Nat) =>
      exec (.configure tag ident ch value) s = .next (s.answered 0x82 tag st ([ident, ch] ++ le16 v))
    ((∀ p : ChanParam, ident.toNat ≠ p.row.ident) → (∀ p : DevParam, ident.toNat ≠ p.ident) → refused 0x04 0) ∧
    (∀ p : ChanParam, ident.toNat = p.row.ident → 8 ≤ ch.toNat → refused 0x03 0) ∧
    (∀ (p : ChanParam) (c : ChanId), ident.toNat = p.row.ident → ch.toNat = c.val →
      let v := (s.ch c).ms.pending.get p
      let st := (s.ch c).ms.state
      (∀ cs, p.row.range = .codes cs → value.toNat ∉ cs → refused 0x04 v) ∧
      (p.row.range.admits value.toNat = true →
        (s.link.locked = true → p.row.safety = true → refused 0x06 v) ∧
        (s.link.locked = false ∨ p.row.safety = false →
          (p = .travelLength ∨ p = .endMode → st ≠ .disabled → refused 0x05 v) ∧
          (p = .enable → value.toNat = 0 → (st = .queued ∨ st.holding = true) → refused 0x05 v) ∧
          (∀ l : LineId, p = .enable → value.toNat = 1 → st = .disabled → s.lines[l].asserted = true →
            inSet s.device.maps[l] c = true → refused 0x0B v)))) ∧
    (∀ p : DevParam, ident.toNat = p.ident →
      (s.link.locked = true → refused 0x06 (s.device.get p)) ∧
      (s.link.locked = false → p = .slotCount → s.arbiter.holders ≠ [] → refused 0x05 (s.device.get p)))

/-- An accepted CONFIGURE of a per-channel parameter that no other depends on stores the value, held to its range, in the
pending set, answers with the value taken, and changes nothing else: not the active set, in any channel state.
An accepted CONFIGURE of End mode, for a DISABLED channel, stores the code in both sets and empties the profile; one of a
device-wide parameter but a fault line map stores the value taken at once. Nothing else changes. -/
def Obligations.ConfigureStoresTheValue : Prop :=
  (∀ (s : State) (tag ident ch : Byte) (value : Word16) (p : ChanParam) (c : ChanId),
     s.hearing → ident.toNat = p.row.ident → ch.toNat = c.val → p.row.range.admits value.toNat = true →
     (s.link.locked = false ∨ p.row.safety = false) →
     p ∉ [ChanParam.enable, .endMode, .travelLength, .persistenceDepth, .persistenceCount, .zSeal, .zPinch] →
     ∃ v : Nat, (∀ cs, p.row.range = .codes cs → v = value.toNat) ∧
       (∀ lo hi, p.row.range = .span lo hi → v = max lo (min value.toNat hi)) ∧
       exec (.configure tag ident ch value) s = .next (State.answered
         (s.setCh c { s.ch c with ms := { (s.ch c).ms with pending := (s.ch c).ms.pending.set p v } })
         0x82 tag 0x00 ([ident, ch] ++ le16 v))) ∧
  (∀ (s : State) (tag ch : Byte) (value : Word16), s.hearing → s.link.locked = false →
     (∀ c : ChanId, ch.toNat = c.val → (s.ch c).ms.state = .disabled → value.toNat ≤ 1 →
       exec (.configure tag 0x01 ch value) s = .next (State.answered
         (s.setCh c { s.ch c with
           ms := { (s.ch c).ms with pending := (s.ch c).ms.pending.set .endMode value.toNat,
                                    active := (s.ch c).ms.active.set .endMode value.toNat }
           rps := { (s.ch c).rps with cells := Vector.replicate 64 ⟨.empty, 0, 0, 0⟩ } })
         0x82 tag 0x00 ([0x01, ch] ++ le16 value.toNat))) ∧
     (s.arbiter.holders = [] →
       let v := max 1 (min value.toNat 4)
       exec (.configure tag 0x40 ch value) s = .next (State.answered
         { s with device := { s.device with slotCount := v } } 0x82 tag 0x00 ([0x40, ch] ++ le16 v))) ∧
     (let v := max 4 (min value.toNat 64);
       exec (.configure tag 0x41 ch value) s = .next (State.answered
         { s with device := { s.device with cmWindow := v } } 0x82 tag 0x00 ([0x41, ch] ++ le16 v))) ∧
     (let v := max 50 (min value.toNat 1000);
       exec (.configure tag 0x42 ch value) s = .next (State.answered
         { s with device := { s.device with holdTime := v } } 0x82 tag 0x00 ([0x42, ch] ++ le16 v))) ∧
     (let v := max 200 (min value.toNat 5000);
       exec (.configure tag 0x43 ch value) s = .next (State.answered
         { s with device := { s.device with roadStaleness := v } } 0x82 tag 0x00 ([0x43, ch] ++ le16 v))))

/-- CONFIGURE of a fault line map takes the eight lowest flags at once. With the line INACTIVE its latch is judged and
nothing else changes; with the line ASSERTED every channel the new map adds, enabled and not in FAULT, enters FAULT as at
an assertion, and a channel removed stays as it is. With the line ASSERTED one BRIDGE record is taken for every added
channel that enters FAULT, of its state before the write (log 34), in an order the manual leaves open (log 7), while
records are free, and the others are lost; and a MOTION_END FAULT_STOP waits for each of them that had a motion, and an
INCIDENT for each record taken: of the reply and the notices the reply is sent first (log 6). -/
def Obligations.FaultLineMapIsWritten : Prop :=
  (∀ (s : State) (tag ident ch : Byte) (value : Word16) (l : LineId), s.hearing → s.link.locked = false →
     ident.toNat = 0x44 + l.val →
     let map : ChanSet := BitVec.ofNat 8 value.toNat
     let added := fun c : ChanId => inSet map c = true ∧ inSet s.device.maps[l] c = false
     ∃ t, exec (.configure tag ident ch value) s = .next t ∧
       t.device = { s.device with maps := s.device.maps.set l map } ∧
       t.link.replies = s.link.replies ++ [⟨0x82, tag, [0x00, ident, ch] ++ le16 map.toNat, none⟩] ∧
       t.lines[l].asserted = s.lines[l].asserted ∧ (∀ j : LineId, j ≠ l → t.lines[j] = s.lines[j]) ∧
       t.supply = s.supply ∧ t.effort = s.effort ∧ t.clock = s.clock ∧
       (s.lines[l].asserted = false → t.chans = s.chans ∧ t.arbiter = s.arbiter ∧ t.pool = s.pool ∧
         t.link.notices = s.link.notices ∧
         (t.lines[l].latch = true ↔ s.lines[l].latch = true ∧
           ∃ c : ChanId, inSet map c = true ∧ (s.ch c).ms.state = .fault)) ∧
       (s.lines[l].asserted = true → t.lines[l].latch = s.lines[l].latch ∧ ∀ c : ChanId,
         (added c → (s.ch c).ms.state ≠ .disabled → (s.ch c).ms.state ≠ .fault →
           (t.ch c).ms.state = .fault ∧ (t.ch c).ms.cause = .bridge l ∧ (t.ch c).out.mode = .off ∧
           (t.ch c).out.applied = 0 ∧ (t.ch c).ms.motion = none ∧ c ∉ t.arbiter.holders ∧
           (t.ch c).pd.position = (s.ch c).pd.position ∧ (t.ch c).pd.known = (s.ch c).pd.known ∧
           (t.ch c).ms.reversal = (s.ch c).ms.reversal) ∧
         (¬added c ∨ (s.ch c).ms.state = .disabled ∨ (s.ch c).ms.state = .fault →
           c ∉ s.arbiter.queue.map QueueEntry.chan → t.ch c = s.ch c))) ∧
  (∀ (s : State) (tag ident ch : Byte) (value : Word16) (l : LineId), s.hearing → s.link.locked = false →
     ident.toNat = 0x44 + l.val → s.lines[l].asserted = true → s.pool.Partitioned →
     let acted := s.faultable (BitVec.ofNat 8 value.toNat &&& ~~~s.device.maps[l])
     ∃ t, exec (.configure tag ident ch value) s = .next t ∧ s.BridgeRecordsTaken t l acted ∧
       s.BridgeNoticesPosted t acted ∧ t.link.notices.faultLine = s.link.notices.faultLine ∧
       t.link.notices.supply = s.link.notices.supply)

/-- The parameters that limit one another: what an accepted write of M, K, Z_pinch, Z_seal and, for a DISABLED channel, L
takes, and how it adjusts its dependents. A write of L leaves the position counter as it stands, also where it is UNKNOWN
and above L+64 (log 30). -/
def Obligations.DependentParametersAreAdjusted : Prop :=
  ∀ (s : State) (tag ch : Byte) (value : Word16) (c : ChanId), s.hearing → ch.toNat = c.val → s.link.locked = false →
    let ps := (s.ch c).ms.pending
    let stored := fun (ident : Byte) (v : Nat) (qs : ParamSet) =>
      exec (.configure tag ident ch value) s = .next (State.answered
        (s.setCh c { s.ch c with ms := { (s.ch c).ms with pending := qs } }) 0x82 tag 0x00 ([ident, ch] ++ le16 v))
    (let v := max 1 (min value.toNat (ps.get .persistenceDepth)); stored 0x1C v (ps.set .persistenceCount v)) ∧
    (let v := max 1 (min value.toNat 8);
      stored 0x1B v ((ps.set .persistenceDepth v).set .persistenceCount (min (ps.get .persistenceCount) v))) ∧
    (let v := max (ps.get .zSeal) (min value.toNat (ps.get .travelLength)); stored 0x1E v (ps.set .zPinch v)) ∧
    (let v := min value.toNat (min 255 (ps.get .travelLength));
      stored 0x1D v ((ps.set .zSeal v).set .zPinch (max (ps.get .zPinch) v))) ∧
    ((s.ch c).ms.state = .disabled →
      let v := max 64 (min value.toNat 4095)
      let lowered := fun qs : ParamSet => ((qs.set .travelLength v).set .zSeal (min (qs.get .zSeal) v)).set .zPinch
        (min (qs.get .zPinch) v)
      exec (.configure tag 0x02 ch value) s = .next (State.answered
        (s.setCh c { s.ch c with
          ms := { (s.ch c).ms with pending := lowered ps, active := lowered (s.ch c).ms.active }
          rps := { (s.ch c).rps with cells := Vector.replicate 64 ⟨.empty, 0, 0, 0⟩ } })
        0x82 tag 0x00 ([0x02, ch] ++ le16 v)))

/-- CONFIGURE of Enable: yes enables a DISABLED channel no asserted line maps, with the pending set copied and the
override flag judged; no disables an IDLE channel, its position UNKNOWN; each leaves the rest of the part, and what the
rules keep.
Disabling a channel in FAULT: DISABLED, its cause none, its position UNKNOWN, and the latch of every INACTIVE line that
maps it is cleared where no other channel of the line is in FAULT; nothing else changes. -/
def Obligations.EnableAndDisable : Prop :=
  (∀ (s : State) (tag ch : Byte) (c : ChanId), s.hearing → ch.toNat = c.val →
     let k := s.ch c
     (k.ms.state = .disabled → (∀ l : LineId, s.lines[l].asserted = true → inSet s.device.maps[l] c = false) →
       ∃ t, exec (.configure tag 0x00 ch 1) s = .next t ∧ (t.ch c).ms.state = .idle ∧
         (t.ch c).ms.pending = k.ms.pending.set .enable 1 ∧ (t.ch c).ms.active = k.ms.pending.set .enable 1 ∧
         ((t.ch c).ms.override = true ↔ k.ms.pending.get .reversalLimit ≤ k.ms.reversal) ∧
         (t.ch c).pd.known = k.pd.known ∧ (t.ch c).pd.position = k.pd.position ∧ (t.ch c).rps = k.rps ∧
         (t.ch c).ms.reversal = k.ms.reversal ∧ (t.ch c).ee.sticky = k.ee.sticky ∧ (t.ch c).pd.travel = k.pd.travel ∧
         (t.ch c).ee.lane = none ∧ s.SameOthers t c ∧ t.arbiter = s.arbiter ∧ s.SameDevice t ∧ t.pool = s.pool) ∧
     (k.ms.state = .idle →
       ∃ t, exec (.configure tag 0x00 ch 0) s = .next t ∧ (t.ch c).ms.state = .disabled ∧ (t.ch c).pd.known = false ∧
         (t.ch c).ms.pending = k.ms.pending.set .enable 0 ∧ (t.ch c).ms.active = k.ms.active.set .enable 0 ∧
         (t.ch c).rps = k.rps ∧ (t.ch c).ms.reversal = k.ms.reversal ∧ (t.ch c).ms.override = k.ms.override ∧
         (t.ch c).ee = k.ee ∧ (t.ch c).pd.travel = k.pd.travel ∧ (t.ch c).pd.difference = k.pd.difference ∧
         (t.ch c).pd.position = k.pd.position ∧ (t.ch c).out.mode = .off ∧
         s.SameOthers t c ∧ t.arbiter = s.arbiter ∧ s.SameDevice t ∧ t.pool = s.pool) ∧
     (k.ms.state ≠ .disabled → exec (.configure tag 0x00 ch 1) s =
       .next (s.answered 0x82 tag 0x00 [0x00, ch, 0x01, 0x00])) ∧
     (k.ms.state = .disabled → exec (.configure tag 0x00 ch 0) s =
       .next (s.answered 0x82 tag 0x00 [0x00, ch, 0x00, 0x00]))) ∧
  (∀ (s : State) (tag ch : Byte) (c : ChanId), s.hearing → ch.toNat = c.val → (s.ch c).ms.state = .fault →
     let k := s.ch c
     ∃ t, exec (.configure tag 0x00 ch 0) s = .next t ∧ (t.ch c).ms.state = .disabled ∧ (t.ch c).ms.cause = .none ∧
       (t.ch c).pd.known = false ∧ (t.ch c).pd.position = k.pd.position ∧ (t.ch c).pd.travel = k.pd.travel ∧
       (t.ch c).pd.difference = k.pd.difference ∧ (t.ch c).ms.pending = k.ms.pending.set .enable 0 ∧
       (t.ch c).ms.active = k.ms.active.set .enable 0 ∧ (t.ch c).ms.reversal = k.ms.reversal ∧
       (t.ch c).ms.override = k.ms.override ∧ (t.ch c).rps = k.rps ∧ (t.ch c).ee = k.ee ∧ (t.ch c).out.mode = .off ∧
       s.SameOthers t c ∧ t.arbiter = s.arbiter ∧ t.pool = s.pool ∧ t.device = s.device ∧ t.supply = s.supply ∧
       t.effort = s.effort ∧ t.clock = s.clock ∧ t.link.notices = s.link.notices ∧
       t.link.replies = s.link.replies ++ [⟨0x82, tag, [0x00, 0x00, ch, 0x00, 0x00], none⟩] ∧
       ∀ l : LineId,
         t.lines[l].pin = s.lines[l].pin ∧ t.lines[l].hist = s.lines[l].hist ∧
         t.lines[l].asserted = s.lines[l].asserted ∧
         (t.lines[l].latch = true ↔ s.lines[l].latch = true ∧ ¬(s.lines[l].asserted = false ∧
           inSet s.device.maps[l] c = true ∧ ∀ d : ChanId, d ≠ c → inSet s.device.maps[l] d = true → (s.ch d).ms.state ≠ .fault)))

/-! ## MOVE and STOP -/

/-- A MOVE whose kind or direction is no code is refused whole with BAD_VALUE and acts on no channel, a NORMALIZE with
such a direction too (log 37); any other is judged and acted on channel by channel, by rising channel number, each on the
state the one before has left. The checks of a MOVE for one channel, in order: the first that fails gives the entry's
code, and nothing changes for the channel or for any other. -/
def Obligations.MoveRefusalsInOrder : Prop :=
  (∀ (s : State) (tag set kind dir : Byte) (target : Word16), s.hearing →
     (3 < kind.toNat ∨ 1 < dir.toNat → exec (.move tag set kind dir target) s = .next (s.answered 0x84 tag 0x04 [])) ∧
     (∀ (k : MoveKind) (d : Dir), kindOf kind = some k → dirOf dir = some d →
       let asked := fun (s : State) (c : ChanId) => requestedMotion k d target.toNat ((s.ch c).ms.active.get .travelLength)
       let r := (chansOf set).foldl (fun (r : List Byte × State) c =>
         let o := r.2.moveOne c (asked r.2 c)
         (r.1 ++ ([byteOf c.val, o.1.code] ++ le16 (asked r.2 c).reportedTarget), o.2)) ([], s)
       exec (.move tag set kind dir target) s = .next (r.2.answered 0x84 tag 0x00 r.1))) ∧
  (∀ (s : State) (tag set kind dir : Byte) (target : Word16) (c : ChanId) (k : MoveKind) (d : Dir), s.hearing →
     chansOf set = [c] → kindOf kind = some k → dirOf dir = some d →
     let ch := s.ch c
     let st := ch.ms.state
     let normalize := k = .normalize
     let unattended := (k = .express ∨ k = .goTo) ∧ d = .closing
     let running := ch.ms.motion.any Motion.normalizing = true
     let other := ch.ms.motion.any (fun m => !m.normalizing) = true
     let judging := if st = .idle ∨ st = .queued then ch.ms.pending else ch.ms.active
     let taken := if k = .goTo then min target.toNat (ch.ms.active.get .travelLength) else 0
     let p1 := st = .disabled
     let p2 := st = .fault ∨ ∃ cond, ch.successor = some (.fault cond)
     let p3 := s.supply.state = .cutoff
     let p4 := ch.ms.marker = true
     let p5 := (∃ r, ch.successor = some (.idle r)) ∨ (running ∧ ¬normalize) ∨
       (normalize ∧ (st = .startup ∨ st = .travel ∨ st = .dwell) ∧ other)
     let p6 := unattended ∧ ch.pd.known = false
     let p7 := unattended ∧ profileComplete ch.rps.cells (ch.ms.active.get .travelLength) (judging.get .zSeal) = false
     let p8 := unattended ∧ judging.get .reversalLimit ≤ ch.ms.reversal
     let refused := fun (code : Byte) => exec (.move tag set kind dir target) s =
       .next (s.answered 0x84 tag 0x00 ([byteOf c.val, code] ++ le16 taken))
     (p1 → refused 0x0E) ∧ (¬p1 → p2 → refused 0x0B) ∧ (¬p1 → ¬p2 → p3 → refused 0x0C) ∧
     (¬p1 → ¬p2 → ¬p3 → p4 → refused 0x09) ∧ (¬p1 → ¬p2 → ¬p3 → ¬p4 → p5 → refused 0x05) ∧
     (¬p1 → ¬p2 → ¬p3 → ¬p4 → ¬p5 → p6 → refused 0x08) ∧
     (¬p1 → ¬p2 → ¬p3 → ¬p4 → ¬p5 → ¬p6 → p7 → refused 0x07) ∧
     (¬p1 → ¬p2 → ¬p3 → ¬p4 → ¬p5 → ¬p6 → ¬p7 → p8 → refused 0x0A))

/-- A MOVE accepted for an IDLE channel with a slot free, the supply NORMAL and the queue empty: the channel is granted at
once and begins its drive: the target duty by the motion's kind and direction, the ramp from the Start duty where that is
below the target, or at the target with Ramp time 0 (no step is then to come, log 33), and a first PWM period with that
duty (log 21); no other channel is touched. A MOVE accepted for an IDLE channel when no grant can be made: the channel is
QUEUED and joins the queue behind every entry of its class; a HELD entry goes ahead of every UNHELD one. Its outputs, its
position and every other channel stay. A GOTO accepted for an IDLE channel already at or beyond its target is ended at
once: MOTION_END TARGET_REACHED is posted and nothing else changes; of the reply and the notice the reply is sent first
(log 6). -/
def Obligations.MoveOfAnIdleChannel : Prop :=
  (∀ (s : State) (tag set kind dir : Byte) (target : Word16) (c : ChanId) (k : MoveKind) (d : Dir), s.hearing →
     chansOf set = [c] → kindOf kind = some k → dirOf dir = some d → (s.ch c).ms.state = .idle →
     let ch := s.ch c
     let m := requestedMotion k d target.toNat (ch.ms.active.get .travelLength)
     ch.judgeMove s.supply.state m = none → ch.atTarget m = false → s.supply.state = .normal →
     s.arbiter.holders.length < s.device.slotCount → s.arbiter.queue = [] →
     ∃ t, exec (.move tag set kind dir target) s = .next t ∧
       (t.ch c).ms.state = .startup ∧ (t.ch c).ms.motion = some m ∧ (t.ch c).ms.pending = ch.ms.pending ∧
       (t.ch c).ms.active = ch.ms.pending ∧
       ((t.ch c).ms.override = true ↔ ch.ms.pending.get .reversalLimit ≤ ch.ms.reversal) ∧
       (t.ch c).ms.lease = (if m.held then some (ch.ms.pending.get .jogLease * 1000) else none) ∧
       (t.ch c).ms.taint = false ∧ (t.ch c).ms.blanking = 0 ∧ (t.ch c).ms.marker = false ∧
       (t.ch c).ms.reversal = ch.ms.reversal ∧
       (t.ch c).pd.timer = 0 ∧ (t.ch c).pd.overflow = 0 ∧ (t.ch c).pd.ring = [] ∧ (t.ch c).pd.confirm = 0 ∧
       (t.ch c).pd.watchdog = some (ch.ms.pending.get .stallTimeout * 1000) ∧
       (t.ch c).pd.position = ch.pd.position ∧ (t.ch c).pd.known = ch.pd.known ∧
       (t.ch c).pd.difference = ch.pd.difference ∧ (t.ch c).pd.travel = ch.pd.travel ∧
       (t.ch c).out.BeginsDrive ch.ms.pending m s.supply ∧
       (∀ i : Fin 8, (t.ch c).ee.slots[i] = ⟨ch.ee.slots[i].value, .empty⟩) ∧ (t.ch c).ee.top = 0 ∧
       (t.ch c).ee.history = List.replicate 8 false ∧ (t.ch c).ee.summary = ⟨none, none, none, none⟩ ∧
       (m.dir = .closing → (t.ch c).rps.scratch = Vector.replicate 64 ⟨0, 0⟩) ∧ (t.ch c).rps.cells = ch.rps.cells ∧
       (∀ x, x ∈ t.arbiter.holders ↔ x = c ∨ x ∈ s.arbiter.holders) ∧ t.arbiter.queue = [] ∧
       s.SameOthers t c ∧ s.SameDevice t ∧ t.pool = s.pool ∧
       t.link.replies = s.link.replies ++
         [⟨0x84, tag, [0x00, byteOf c.val, 0x00] ++ le16 (if k = .goTo then min target.toNat (ch.ms.active.get .travelLength) else 0),
           none⟩]) ∧
  (∀ (s : State) (tag set kind dir : Byte) (target : Word16) (c : ChanId) (k : MoveKind) (d : Dir), s.hearing →
     chansOf set = [c] → kindOf kind = some k → dirOf dir = some d → (s.ch c).ms.state = .idle →
     let ch := s.ch c
     let m := requestedMotion k d target.toNat (ch.ms.active.get .travelLength)
     ch.judgeMove s.supply.state m = none → ch.atTarget m = false →
     s.supply.state ≠ .normal ∨ s.device.slotCount ≤ s.arbiter.holders.length →
     heldFirst s.arbiter.queue →
     ∃ t, exec (.move tag set kind dir target) s = .next t ∧
       t.ch c = { ch with ms := { ch.ms with
         state := .queued, motion := some m,
         lease := if m.held then some (ch.ms.pending.get .jogLease * 1000) else none } } ∧
       t.arbiter.holders = s.arbiter.holders ∧
       t.arbiter.queue = (if m.held then
           s.arbiter.queue.filter (fun e => e.held) ++ [⟨c, true⟩] ++ s.arbiter.queue.filter (fun e => !e.held)
         else s.arbiter.queue ++ [⟨c, false⟩]) ∧
       s.SameOthers t c ∧ s.SameDevice t ∧ t.pool = s.pool) ∧
  (∀ (s : State) (tag set : Byte) (target : Word16) (c : ChanId), s.hearing → chansOf set = [c] →
     (s.ch c).ms.state = .idle → (s.ch c).pd.known = true →
     let ch := s.ch c
     let taken := min target.toNat (ch.ms.active.get .travelLength)
     let posted : State := { s with link := { s.link with notices := { s.link.notices with
       motionEnd := s.link.notices.motionEnd.set c (some ⟨.targetReached, ch.pd.position, true⟩) } } }
     (ch.judgeMove s.supply.state (.goTo .opening taken) = none → (taken : Int) ≤ ch.pd.position →
       exec (.move tag set 2 1 target) s =
         .next (posted.answered 0x84 tag 0x00 ([byteOf c.val, 0x00] ++ le16 taken))) ∧
     (ch.judgeMove s.supply.state (.goTo .closing taken) = none → ch.pd.position ≤ (taken : Int) →
       exec (.move tag set 2 0 target) s =
         .next (posted.answered 0x84 tag 0x00 ([byteOf c.val, 0x00] ++ le16 taken))))

/-- A MOVE accepted for a channel in STARTUP or TRAVEL. In the opposite direction it ends the drive and redirects the
motion: DWELL toward STARTUP with the requested motion, the slot kept, no notice posted. In the same direction it is
joined: JOG renews a JOG and leaves the others, EXPRESS and GOTO become the motion, and a GOTO whose target is met ends
the drive with TARGET_REACHED, as the model chooses where a closing one in End mode SOFT is also at or below Soft-close
(log 35). A NORMALIZE renews the lease of a normalization. -/
def Obligations.MoveActsOnARunningMotion : Prop :=
  ∀ (s : State) (tag set kind dir : Byte) (target : Word16) (c : ChanId) (k : MoveKind) (d : Dir) (old : Motion),
    s.hearing → chansOf set = [c] → kindOf kind = some k → dirOf dir = some d →
    (s.ch c).ms.state = .startup ∨ (s.ch c).ms.state = .travel → (s.ch c).ms.motion = some old →
    let ch := s.ch c
    let m := requestedMotion k d target.toNat (ch.ms.active.get .travelLength)
    let taken := if k = .goTo then min target.toNat (ch.ms.active.get .travelLength) else 0
    let entry := [byteOf c.val, 0x00] ++ le16 taken
    let changed := fun (motion : Motion) (lease : Option Nat) => exec (.move tag set kind dir target) s =
      .next (State.answered (s.setCh c { ch with ms := { ch.ms with motion := some motion, lease := lease } })
        0x84 tag 0x00 entry)
    let renewed := some (ch.ms.active.get .jogLease * 1000)
    ch.judgeMove s.supply.state m = none →
    (k = .normalize → old.normalizing = true → changed old renewed) ∧
    (k ≠ .normalize → old.normalizing = false → old.dir = m.dir → ch.atTarget m = false →
      (k = .jog → old.held = true → changed old renewed) ∧
      (k = .jog → old.held = false → changed old ch.ms.lease) ∧
      (k = .express → old = m → changed old ch.ms.lease) ∧
      (k = .express → old ≠ m → changed m none) ∧
      (k = .goTo → changed m none)) ∧
    (k = .goTo → old.normalizing = false → old.dir = m.dir → ch.atTarget m = true →
      ∃ t, exec (.move tag set kind dir target) s = .next t ∧ (t.ch c).DwellsToward (.idle .targetReached) ∧
        (t.ch c).pd.position = ch.pd.position ∧ (t.ch c).pd.known = ch.pd.known ∧
        s.SameOthers t c ∧ t.arbiter = s.arbiter ∧ s.SameDevice t ∧ t.pool = s.pool ∧ t.link.notices = s.link.notices) ∧
    (k ≠ .normalize → old.normalizing = false → old.dir ≠ m.dir →
      ∃ t, exec (.move tag set kind dir target) s = .next t ∧ (t.ch c).DwellsToward .startup ∧
        (t.ch c).ms.motion = some m ∧ (t.ch c).ms.lease = (if m.held then renewed else none) ∧
        (t.ch c).ms.pending = ch.ms.pending ∧ (t.ch c).ms.active = ch.ms.active ∧
        (t.ch c).pd.position = ch.pd.position ∧ (t.ch c).pd.known = ch.pd.known ∧
        (t.ch c).ms.reversal = ch.ms.reversal ∧ (t.ch c).rps.cells = ch.rps.cells ∧
        s.SameOthers t c ∧ t.arbiter = s.arbiter ∧ s.SameDevice t ∧ t.pool = s.pool ∧ t.link.notices = s.link.notices)

/-- A MOVE accepted for a channel that waits, QUEUED or in DWELL toward STARTUP: a JOG of the same direction and a second
NORMALIZE renew the lease, an EXPRESS of the same direction changes nothing, and any other motion takes the waiting one's
place, behind every entry of its class when the class changes; a GOTO whose target is met ends the wait (in DWELL by the
model's reading, log 14), and its MOTION_END waits behind the reply (log 6). -/
def Obligations.MoveActsOnAWaitingMotion : Prop :=
  ∀ (s : State) (tag set kind dir : Byte) (target : Word16) (c : ChanId) (k : MoveKind) (d : Dir) (old : Motion),
    s.hearing → chansOf set = [c] → kindOf kind = some k → dirOf dir = some d →
    (s.ch c).ms.state = .queued ∨ (s.ch c).successor = some .startup → (s.ch c).ms.motion = some old →
    let ch := s.ch c
    let m := requestedMotion k d target.toNat (ch.ms.active.get .travelLength)
    let ps := if ch.ms.state = .queued then ch.ms.pending else ch.ms.active
    let taken := if k = .goTo then min target.toNat (ch.ms.active.get .travelLength) else 0
    let entry := [byteOf c.val, 0x00] ++ le16 taken
    let renews := (k = .jog ∧ old = .jog d) ∨ (k = .normalize ∧ old.normalizing = true)
    let keeps := k = .express ∧ old = .express d
    let rest := s.arbiter.queue.filter (fun e => e.chan != c)
    ch.judgeMove s.supply.state m = none →
    (renews → exec (.move tag set kind dir target) s = .next (State.answered (s.setCh c { ch with
      ms := { ch.ms with lease := some (ps.get .jogLease * 1000) } }) 0x84 tag 0x00 entry)) ∧
    (keeps → exec (.move tag set kind dir target) s = .next (s.answered 0x84 tag 0x00 entry)) ∧
    (¬renews → ¬keeps → ch.atTarget m = false → heldFirst s.arbiter.queue →
      ∃ t, exec (.move tag set kind dir target) s = .next t ∧
        t.ch c = { ch with ms := { ch.ms with
          motion := some m, lease := if m.held then some (ps.get .jogLease * 1000) else none } } ∧
        t.arbiter.holders = s.arbiter.holders ∧
        t.arbiter.queue = (if ch.ms.state = .queued ∧ old.held ≠ m.held then
            if m.held then rest.filter (fun e => e.held) ++ [⟨c, true⟩] ++ rest.filter (fun e => !e.held)
            else rest ++ [⟨c, false⟩]
          else s.arbiter.queue) ∧
        s.SameOthers t c ∧ s.SameDevice t ∧ t.pool = s.pool ∧ t.link.notices = s.link.notices) ∧
    (¬renews → ¬keeps → ch.atTarget m = true → c ∉ s.arbiter.holders ∨ ch.ms.state ≠ .queued →
      ∃ t, exec (.move tag set kind dir target) s = .next t ∧ (t.ch c).ms.motion = none ∧ (t.ch c).ms.lease = none ∧
        (t.ch c).pd.position = ch.pd.position ∧ (t.ch c).pd.known = ch.pd.known ∧
        t.arbiter.holders = s.arbiter.holders ∧ s.SameOthers t c ∧ s.SameDevice t ∧ t.pool = s.pool ∧
        (ch.ms.state = .queued → (t.ch c).ms.state = .idle ∧ t.arbiter.queue = rest ∧
          t.link.notices.motionEnd[c] = some ⟨.targetReached, ch.pd.position, true⟩) ∧
        (ch.ms.state ≠ .queued → (t.ch c).successor = some (.idle .targetReached) ∧
          (t.ch c).ms.dwell.map DwellRecord.timer = ch.ms.dwell.map DwellRecord.timer ∧
          t.arbiter.queue = s.arbiter.queue ∧ t.link.notices = s.link.notices))

/-- STOP of one channel by its state, answered ACCEPTED in every state; no other channel is touched, and STOP releases no
slot. The MOTION_END of a QUEUED channel waits behind the reply (log 6). STOP of several acts on them one by one, by
rising channel number. -/
def Obligations.StopActsByState : Prop :=
  (∀ (s : State) (tag set : Byte) (c : ChanId), s.hearing → chansOf set = [c] → c ∉ s.arbiter.holders ∨
     (s.ch c).ms.state ≠ .queued →
     ∃ t, exec (.stop tag set) s = .next t ∧ s.SameOthers t c ∧ s.SameDevice t ∧ t.pool = s.pool ∧
       t.arbiter.holders = s.arbiter.holders ∧
       t.link.replies = s.link.replies ++ [⟨0x85, tag, [0x00, byteOf c.val, 0x00], none⟩] ∧
       (t.ch c).ms.pending = (s.ch c).ms.pending ∧ (t.ch c).ms.active = (s.ch c).ms.active ∧
       (t.ch c).pd.position = (s.ch c).pd.position ∧ (t.ch c).pd.known = (s.ch c).pd.known ∧
       (t.ch c).ms.reversal = (s.ch c).ms.reversal ∧ (t.ch c).rps.cells = (s.ch c).rps.cells ∧
       ((s.ch c).ms.state = .queued → (t.ch c).ms.state = .idle ∧
         t.arbiter.queue = s.arbiter.queue.filter (fun e => e.chan != c) ∧
         t.link.notices.motionEnd[c] = some ⟨.stopped, (s.ch c).pd.position, (s.ch c).pd.known⟩) ∧
       ((s.ch c).ms.state ≠ .queued → t.arbiter.queue = s.arbiter.queue ∧ t.link.notices = s.link.notices) ∧
       ((s.ch c).ms.state = .startup ∨ (s.ch c).ms.state = .travel → (t.ch c).DwellsToward (.idle .stopped)) ∧
       ((s.ch c).successor = some .startup ∨ (s.ch c).successor = some .backoff →
         (t.ch c).ms.state = .dwell ∧ (t.ch c).successor = some (.idle .stopped) ∧ (t.ch c).ms.motion = none ∧
         (t.ch c).ms.lease = none ∧ (t.ch c).ms.backoff = none ∧
         (t.ch c).ms.dwell.map DwellRecord.timer = (s.ch c).ms.dwell.map DwellRecord.timer) ∧
       ((s.ch c).ms.state = .backoff → (t.ch c).DwellsToward (.idle .reversed)) ∧
       ((s.ch c).ms.state = .disabled ∨ (s.ch c).ms.state = .idle ∨ (s.ch c).ms.state = .fault ∨
         (∃ r, (s.ch c).successor = some (.idle r)) ∨ (∃ x, (s.ch c).successor = some (.fault x)) → t.ch c = s.ch c)) ∧
  (∀ (s : State) (tag set : Byte), s.hearing → exec (.stop tag set) s = .next (State.answered
     ((chansOf set).foldl State.stopOne s) 0x85 tag 0x00 ((chansOf set).flatMap (fun c => [byteOf c.val, 0x00]))))

/-! ## Timers of the sequencer -/

/-- The expiry of a lease by the channel's state; with no lease running it has no effect (log 5). The expiry of the
back-off timer in BACKOFF: DWELL toward IDLE with BACKOFF_TIMEOUT, the marker kept; outside BACKOFF it has no effect (log
5).
The expiry of a QUEUED channel's lease posts MOTION_END LEASE_EXPIRED (waiting while another frame or reply is before it)
and leaves the channel at rest; in the other states the expiry posts nothing. -/
def Obligations.LeaseAndBackoffTimersExpire : Prop :=
  (∀ (s : State) (c : ChanId),
     ((s.ch c).ms.lease = none → exec (.leaseExpiry c) s = .next s.serve) ∧
     ((s.ch c).ms.lease.isSome = true → c ∉ s.arbiter.holders ∨ (s.ch c).ms.state ≠ .queued →
       ∃ t, exec (.leaseExpiry c) s = .next t ∧ (t.ch c).ms.lease = none ∧ s.SameOthers t c ∧ s.SameDevice t ∧
         s.SameLink t ∧ t.pool = s.pool ∧ t.arbiter.holders = s.arbiter.holders ∧
         (t.ch c).ms.pending = (s.ch c).ms.pending ∧ (t.ch c).ms.active = (s.ch c).ms.active ∧
         (t.ch c).pd.position = (s.ch c).pd.position ∧ (t.ch c).pd.known = (s.ch c).pd.known ∧
         (t.ch c).ms.reversal = (s.ch c).ms.reversal ∧ (t.ch c).rps.cells = (s.ch c).rps.cells ∧
         ((s.ch c).ms.state = .queued → (t.ch c).ms.state = .idle ∧ (t.ch c).ms.motion = none ∧
           t.arbiter.queue = s.arbiter.queue.filter (fun e => e.chan != c)) ∧
         ((s.ch c).ms.state ≠ .queued → t.arbiter.queue = s.arbiter.queue) ∧
         ((s.ch c).ms.state = .startup ∨ (s.ch c).ms.state = .travel →
           (t.ch c).DwellsToward (.idle .leaseExpired)) ∧
         ((s.ch c).successor = some .startup → (t.ch c).ms.state = .dwell ∧
           (t.ch c).successor = some (.idle .leaseExpired) ∧ (t.ch c).ms.motion = none ∧
           (t.ch c).ms.dwell.map DwellRecord.timer = (s.ch c).ms.dwell.map DwellRecord.timer))) ∧
  (∀ (s : State) (c : ChanId),
     ((s.ch c).ms.state = .backoff → ∃ t, exec (.backoffTimerExpiry c) s = .next t ∧
       (t.ch c).DwellsToward (.idle .backoffTimeout) ∧ (t.ch c).ms.marker = (s.ch c).ms.marker ∧
       (t.ch c).ms.backoff = none ∧ (t.ch c).pd.position = (s.ch c).pd.position ∧
       (t.ch c).ms.reversal = (s.ch c).ms.reversal ∧ s.SameOthers t c ∧ s.SameShared t ∧ t.pool = s.pool) ∧
     ((s.ch c).ms.state ≠ .backoff → exec (.backoffTimerExpiry c) s = .next s.serve)) ∧
  (∀ (s : State) (c : ChanId), (s.ch c).ms.lease.isSome = true → s.noticesWait →
     ((s.ch c).ms.state = .queued → c ∉ s.arbiter.holders → ∃ t, exec (.leaseExpiry c) s = .next t ∧
       (t.ch c).ms.state = .idle ∧ (t.ch c).out.mode = .off ∧ (t.ch c).ee.lane = none ∧
       t.link.notices = { s.link.notices with
         motionEnd := s.link.notices.motionEnd.set c (some ⟨.leaseExpired, (s.ch c).pd.position, (s.ch c).pd.known⟩) }) ∧
     ((s.ch c).ms.state ≠ .queued → ∃ t, exec (.leaseExpiry c) s = .next t ∧ t.link.notices = s.link.notices))

/-- The expiry of a DWELL: the channel enters its successor. Toward STARTUP the outputs begin the drive: target duty, ramp
and first PWM period, held to the ceiling while the supply is HIGH (log 21, log 33). Toward BACKOFF they begin at the
Back-off duty, held to the same ceiling, without a ramp. Where the expiry releases the slot, a grant pass follows: with
the supply NORMAL the heads of the queue, as many as slots are free, enter STARTUP with their motions, which is the head
alone where none could have been granted before; otherwise none is granted. Every other channel stays as it was. -/
def Obligations.DwellExpiryEntersTheSuccessor : Prop :=
  (∀ (s : State) (c : ChanId), (s.ch c).ms.state = .dwell →
     (∀ r, (s.ch c).successor = some (.idle r) → ∃ t, exec (.dwellExpiry c) s = .next t ∧ (t.ch c).ms.state = .idle ∧
       (t.ch c).out.mode = .off ∧ (t.ch c).ee.lane = none ∧ (t.ch c).ms.marker = false ∧ (t.ch c).ms.motion = none ∧
       (t.ch c).pd.position = (s.ch c).pd.position ∧ (t.ch c).rps = (s.ch c).rps ∧ c ∉ t.arbiter.holders ∧
       c ∉ t.arbiter.queue.map QueueEntry.chan ∧ t.pool = s.pool ∧ s.SameDevice t ∧
       (s.link.sending.isSome = true ∨ s.link.replies ≠ [] →
         t.link.notices.motionEnd[c] = some ⟨r, (s.ch c).pd.position, (s.ch c).pd.known⟩)) ∧
     (∀ x, (s.ch c).successor = some (.fault x) → ∃ t, exec (.dwellExpiry c) s = .next t ∧ (t.ch c).ms.state = .fault ∧
       (t.ch c).ms.cause = .condition x ∧ (t.ch c).out.mode = .off ∧ (t.ch c).ms.marker = false ∧
       (t.ch c).ms.motion = none ∧ (t.ch c).pd.position = (s.ch c).pd.position ∧ c ∉ t.arbiter.holders ∧
       t.pool = s.pool ∧ s.SameDevice t ∧
       (s.link.sending.isSome = true ∨ s.link.replies ≠ [] →
         t.link.notices.motionEnd[c] = some ⟨.faultStop, (s.ch c).pd.position, (s.ch c).pd.known⟩)) ∧
     (∀ m, (s.ch c).successor = some .startup → (s.ch c).ms.motion = some m →
       (m.unattendedClose = true → (s.ch c).pd.known = true) → ∃ t, exec (.dwellExpiry c) s = .next t ∧
         (t.ch c).ms.state = .startup ∧ (t.ch c).ms.motion = some m ∧ (t.ch c).ms.active = (s.ch c).ms.pending ∧
         (t.ch c).ms.taint = false ∧ (t.ch c).ms.dwell = none ∧ (t.ch c).pd.ring = [] ∧ (t.ch c).pd.confirm = 0 ∧
         (t.ch c).pd.watchdog = some ((s.ch c).ms.pending.get .stallTimeout * 1000) ∧
         (t.ch c).out.BeginsDrive (s.ch c).ms.pending m s.supply ∧
         (t.ch c).ms.lease = (s.ch c).ms.lease ∧ (t.ch c).pd.position = (s.ch c).pd.position ∧
         s.SameOthers t c ∧ s.SameShared t ∧ t.pool = s.pool) ∧
     (∀ m, (s.ch c).successor = some .startup → (s.ch c).ms.motion = some m → m.unattendedClose = true →
       (s.ch c).pd.known = false → ∃ t, exec (.dwellExpiry c) s = .next t ∧ (t.ch c).ms.state = .idle ∧
         (t.ch c).out.mode = .off ∧ c ∉ t.arbiter.holders ∧ t.pool = s.pool ∧
         (s.link.sending.isSome = true ∨ s.link.replies ≠ [] →
           t.link.notices.motionEnd[c] = some ⟨.positionLost, (s.ch c).pd.position, false⟩)) ∧
     (∀ b, (s.ch c).successor = some .backoff → (s.ch c).ms.backoff = some b →
       ¬((s.ch c).pd.known = true ∧ b.target ≤ (s.ch c).pd.position) → ∃ t, exec (.dwellExpiry c) s = .next t ∧
         (t.ch c).ms.state = .backoff ∧ (t.ch c).out.mode = .driveOpen ∧
         (t.ch c).out.target = (s.ch c).ms.active.get .backoffDuty ∧
         (t.ch c).out.ramp = (s.ch c).ms.active.get .backoffDuty ∧ (t.ch c).out.step = none ∧ (t.ch c).out.stepIn = 0 ∧
         (t.ch c).out.applied = (if s.supply.state = .high then
           min ((s.ch c).ms.active.get .backoffDuty) (16384000 / s.supply.u) else (s.ch c).ms.active.get .backoffDuty) ∧
         (t.ch c).out.pwm = some 0 ∧
         (t.ch c).ms.backoff = some ⟨b.target, some ((s.ch c).ms.active.get .backoffTimeout * 1000)⟩ ∧
         (t.ch c).ms.active = (s.ch c).ms.active ∧ (t.ch c).ms.marker = (s.ch c).ms.marker ∧
         (t.ch c).pd.watchdog = some ((s.ch c).ms.active.get .stallTimeout * 1000) ∧ (t.ch c).pd.ring = [] ∧
         s.SameOthers t c ∧ s.SameShared t ∧ t.pool = s.pool) ∧
     (∀ b, (s.ch c).successor = some .backoff → (s.ch c).ms.backoff = some b → (s.ch c).pd.known = true →
       b.target ≤ (s.ch c).pd.position → ∃ t, exec (.dwellExpiry c) s = .next t ∧ (t.ch c).ms.state = .idle ∧
         (t.ch c).ms.marker = false ∧ (t.ch c).out.mode = .off ∧ c ∉ t.arbiter.holders ∧ t.pool = s.pool ∧
         (s.link.sending.isSome = true ∨ s.link.replies ≠ [] →
           t.link.notices.motionEnd[c] = some ⟨.reversed, (s.ch c).pd.position, true⟩))) ∧
  (∀ (s : State) (c : ChanId), s.SlotLaw → s.ArbiterLaw → (s.ch c).ms.state = .dwell →
     let k := s.ch c
     ((∃ r, k.successor = some (.idle r)) ∨ (∃ x, k.successor = some (.fault x)) ∨
       (∃ m, k.successor = some .startup ∧ k.ms.motion = some m ∧ m.unattendedClose = true ∧ k.pd.known = false) ∨
       (∃ b, k.successor = some .backoff ∧ k.ms.backoff = some b ∧ k.pd.known = true ∧ b.target ≤ k.pd.position)) →
     let n := if s.supply.state = .normal then
       min (s.device.slotCount + 1 - s.arbiter.holders.length) s.arbiter.queue.length else 0
     let granted := (s.arbiter.queue.take n).map QueueEntry.chan
     ∃ t, exec (.dwellExpiry c) s = .next t ∧ t.arbiter.queue = s.arbiter.queue.drop n ∧
       (∀ d : ChanId, d ∈ t.arbiter.holders ↔ (d ∈ s.arbiter.holders ∧ d ≠ c) ∨ d ∈ granted) ∧
       (∀ d ∈ granted, ∃ m, (s.ch d).ms.motion = some m ∧
         let g := s.ch d
         let u := t.ch d
         u.ms = { g.ms with
           active := g.ms.pending, override := decide (g.ms.pending.get .reversalLimit ≤ g.ms.reversal), state := .startup,
           dwell := none, taint := false, blanking := 0, marker := false } ∧
         u.pd.timer = 0 ∧ u.pd.overflow = 0 ∧ u.pd.ring = [] ∧ u.pd.confirm = 0 ∧
         u.pd.watchdog = some (g.ms.pending.get .stallTimeout * 1000) ∧ u.pd.position = g.pd.position ∧
         u.pd.known = g.pd.known ∧ u.pd.difference = g.pd.difference ∧ u.pd.travel = g.pd.travel ∧
         u.out.BeginsDrive g.ms.pending m s.supply ∧
         (∀ i : Fin 8, u.ee.slots[i] = ⟨g.ee.slots[i].value, .empty⟩) ∧ u.ee.top = 0 ∧
         u.ee.history = List.replicate 8 false ∧ u.ee.summary = ⟨none, none, none, none⟩ ∧
         (m.dir = .closing → u.rps.scratch = Vector.replicate 64 ⟨0, 0⟩) ∧ u.rps.cells = g.rps.cells) ∧
       (∀ d : ChanId, d ≠ c → d ∉ granted → t.ch d = s.ch d) ∧
       (s.NoneWaits → s.supply.state = .normal → ∀ e rest, s.arbiter.queue = e :: rest →
         granted = [e.chan] ∧ t.arbiter.queue = rest) ∧
       s.SameDevice t ∧ t.pool = s.pool)

/-! ## Counts and the decoder -/

/-- The direction of a count: a step forward along (low, low), (high, low), (high, high), (low, high) closes with the
Phase order normal and opens with it swapped. A count of a channel that is not driven (and not QUEUED, whose loss of
position has its own effect): the position counter, its validity at the bounds, the timer, the ring and the difference
counter; everything else stays. A count of a QUEUED channel moves the position alike, and changes nothing else, but where
a closing EXPRESS or GOTO loses its position by it: then the wait ends in IDLE with MOTION_END POSITION_LOST (waiting
while another frame or reply is before it), and its queue entry is removed. -/
def Obligations.CountAtRestMovesThePosition : Prop :=
  (∀ (k : Chan) (ph : HallPhase),
     let forward := (k.pd.filtA, k.pd.filtB, ph) ∈
       [(false, false, HallPhase.a), (true, false, HallPhase.b), (true, true, HallPhase.a), (false, true, HallPhase.b)]
     let swapped := k.ms.active.get .phaseOrder = 1
     (forward → ¬swapped → k.countDir ph = .closing) ∧ (¬forward → ¬swapped → k.countDir ph = .opening) ∧
     (forward → swapped → k.countDir ph = .opening) ∧ (¬forward → swapped → k.countDir ph = .closing)) ∧
  (∀ (s : State) (c : ChanId) (ph : HallPhase),
     (s.ch c).ms.state = .disabled ∨ (s.ch c).ms.state = .idle ∨ (s.ch c).ms.state = .dwell ∨
       (s.ch c).ms.state = .fault →
     let d := (s.ch c).pd
     let l : Int := (s.ch c).ms.active.get .travelLength
     let step : Int := if (s.ch c).countDir ph = .closing then -1 else 1
     let interval := if d.overflow = 0 then max 1 d.timer else 65535
     ∃ t, exec (.count c ph) s = .next t ∧
       (d.known = true → -64 ≤ d.position + step → d.position + step ≤ l + 64 →
         (t.ch c).pd.position = d.position + step ∧ (t.ch c).pd.known = true) ∧
       (d.known = true → d.position + step < -64 ∨ l + 64 < d.position + step →
         (t.ch c).pd.position = d.position ∧ (t.ch c).pd.known = false) ∧
       (d.known = false → (t.ch c).pd.position = max (-64) (min (l + 64) (d.position + step)) ∧
         (t.ch c).pd.known = false) ∧
       (t.ch c).pd.timer = 0 ∧ (t.ch c).pd.overflow = 0 ∧
       (d.ring.length < 4 → (t.ch c).pd.ring = d.ring ++ [interval]) ∧
       (∀ x y z w, d.ring = [x, y, z, w] → (t.ch c).pd.ring = [y, z, w, interval]) ∧
       (t.ch c).pd.difference = max (-32767) (min 32767 (d.difference + step)) ∧
       (t.ch c).pd.confirm = d.confirm ∧ (t.ch c).pd.watchdog = d.watchdog ∧ (t.ch c).pd.travel = d.travel ∧
       (t.ch c).pd.filtA = (if ph = .a then !d.filtA else d.filtA) ∧
       (t.ch c).pd.filtB = (if ph = .b then !d.filtB else d.filtB) ∧
       (t.ch c).ms = (s.ch c).ms ∧ (t.ch c).out = (s.ch c).out ∧ (t.ch c).ee = (s.ch c).ee ∧ (t.ch c).rps = (s.ch c).rps ∧
       s.SameOthers t c ∧ s.SameShared t ∧ t.pool = s.pool) ∧
  (∀ (s : State) (c : ChanId) (ph : HallPhase), (s.ch c).ms.state = .queued →
     let k := s.ch c
     let interval := if k.pd.overflow = 0 then max 1 k.pd.timer else 65535
     let lost := k.pd.known = true ∧ ¬k.countInBounds ph
     (¬(lost ∧ k.ms.motion.any Motion.unattendedClose = true) → ∃ t, exec (.count c ph) s = .next t ∧
       k.PositionFollows (t.ch c) ph ∧ (t.ch c).pd.timer = 0 ∧ (t.ch c).pd.overflow = 0 ∧
       (t.ch c).pd.ring = pushLast 4 k.pd.ring interval ∧
       (t.ch c).pd.difference = max (-32767) (min 32767 (k.pd.difference + if k.countDir ph = .closing then -1 else 1)) ∧
       (t.ch c).pd.confirm = k.pd.confirm ∧ (t.ch c).pd.watchdog = k.pd.watchdog ∧ (t.ch c).pd.travel = k.pd.travel ∧
       (t.ch c).ms = k.ms ∧ (t.ch c).out = k.out ∧ (t.ch c).ee = k.ee ∧ (t.ch c).rps = k.rps ∧
       s.SameOthers t c ∧ s.SameShared t ∧ t.pool = s.pool) ∧
     (lost → k.ms.motion.any Motion.unattendedClose = true → c ∉ s.arbiter.holders → ∃ t, exec (.count c ph) s = .next t ∧
       (t.ch c).ms.state = .idle ∧ (t.ch c).ms.motion = none ∧ (t.ch c).ms.lease = none ∧ (t.ch c).out.mode = .off ∧
       (t.ch c).pd.position = k.pd.position ∧ (t.ch c).pd.known = false ∧ (t.ch c).ee.lane = none ∧
       (t.ch c).ms.reversal = k.ms.reversal ∧ (t.ch c).rps = k.rps ∧ t.arbiter.holders = s.arbiter.holders ∧
       t.arbiter.queue = s.arbiter.queue.filter (fun e => e.chan != c) ∧
       (s.noticesWait → t.link.notices.motionEnd[c] = some ⟨.positionLost, k.pd.position, false⟩) ∧
       s.SameOthers t c ∧ s.SameDevice t ∧ s.SameLink t ∧ t.pool = s.pool))

/-- A count of a channel in STARTUP, TRAVEL or BACKOFF, in either direction: what the decoder makes of the position, the
timer, the ring, the confirmation, the watchdog, the difference counter and the flags PERIOD_OVERFLOW and DRIFT, and which
count hands the evaluator a request, with its cycle period, its stamp and the number of its drive (log 8). In STARTUP or
TRAVEL: a count against the commanded direction goes on with the drive; one with it counts the blanking (log 31) and may
enter TRAVEL (log 11), and ends the drive at the SOFT closed end, at the target of a GOTO, at the open end, or at the end
of the OPEN phase; an overflowed interval with PERIOD_OVERFLOW unmasked and a loss of position of a closing EXPRESS or
GOTO make condition stops. Where one count calls for two of these, one of them is taken, in an order the manual leaves
open (log 10). In BACKOFF: the drive goes on until the target is met, which ends it with REVERSED, or an unmasked
PERIOD_OVERFLOW stops it; of the two together, one is taken (log 10). -/
def Obligations.CountOfADrive : Prop :=
  (∀ (s : State) (c : ChanId) (ph : HallPhase) (drive : Dir),
     ((s.ch c).ms.state = .backoff ∧ drive = .opening) ∨
       (((s.ch c).ms.state = .startup ∨ (s.ch c).ms.state = .travel) ∧ (s.ch c).ms.motion.map Motion.dir = some drive) →
     let k := s.ch c
     let dir := k.countDir ph
     let interval := if k.pd.overflow = 0 then max 1 k.pd.timer else 65535
     let ring := if dir = drive then pushLast 4 k.pd.ring interval else []
     let left := k.pd.known = true ∧ ¬k.countInBounds ph ∧ k.ms.state ≠ .backoff ∧
       k.ms.motion.any Motion.unattendedClose = true
     let asked := k.ms.state ≠ .backoff ∧ drive = .closing ∧ dir = .closing ∧ k.pd.known = true ∧ k.countInBounds ph ∧
       ring.length = 4 ∧ k.ms.motion ≠ some (.normalize .seek)
     ∃ t, exec (.count c ph) s = .next t ∧ k.PositionFollows (t.ch c) ph ∧ (t.ch c).pd.timer = 0 ∧
       (t.ch c).pd.overflow = 0 ∧ (t.ch c).pd.ring = ring ∧
       (t.ch c).pd.confirm = (if dir = drive then min 2 (k.pd.confirm + 1) else if k.pd.confirm = 2 then 2 else 0) ∧
       (t.ch c).pd.difference = max (-32767) (min 32767 (k.pd.difference + if dir = .closing then -1 else 1)) ∧
       ((t.ch c).ms.state.driving = true → (t.ch c).pd.watchdog =
         if dir = drive then some (k.ms.active.get .stallTimeout * 1000) else k.pd.watchdog) ∧
       ((t.ch c).ee.sticky.periodOverflow = true ↔ k.ee.sticky.periodOverflow = true ∨ k.pd.overflow ≠ 0) ∧
       ((t.ch c).ee.sticky.drift = true ↔ k.ee.sticky.drift = true ∨ left) ∧
       (∀ x : Condition, x ≠ .periodOverflow → x ≠ .drift → (t.ch c).ee.sticky.get x = k.ee.sticky.get x) ∧
       (t.ch c).ee.lastStep = k.ee.lastStep ∧ (t.ch c).ms.taint = k.ms.taint ∧
       (asked → t.effort = { s.effort with requests := s.effort.requests ++
         [⟨c, k.pd.drive, decide (k.ms.state = .travel), k.counted ph, ring.sum, decide (k.pd.overflow ≠ 0)⟩] }) ∧
       (¬asked → t.effort = s.effort) ∧ s.SameOthers t c ∧ t.device = s.device ∧ t.lines = s.lines ∧
       t.supply = s.supply ∧ t.clock = s.clock ∧ t.arbiter = s.arbiter ∧ s.SameLink t) ∧
  (∀ (s : State) (c : ChanId) (ph : HallPhase) (m : Motion),
     (s.ch c).ms.state = .startup ∨ (s.ch c).ms.state = .travel → (s.ch c).ms.motion = some m →
     let k := s.ch c
     let p := k.counted ph
     let l : Int := k.ms.active.get .travelLength
     let commanded := k.countDir ph = m.dir
     let stopped := k.pd.overflow ≠ 0 ∧ k.ms.active.get .maskPeriodOverflow ≠ 1
     let lost := k.pd.known = true ∧ ¬k.countInBounds ph ∧ m.unattendedClose = true
     let soft := m.dir = .closing ∧ m.seeking = false ∧ k.ms.active.get .endMode = 1 ∧
       p ≤ (k.ms.active.get .softClose : Int)
     let target := ∃ q : Nat, (m = .goTo .closing q ∧ p ≤ (q : Int)) ∨ (m = .goTo .opening q ∧ (q : Int) ≤ p)
     let opened := (m = .express .opening ∨ m = .jog .opening) ∧ l ≤ p
     let phase := m = .normalize .openUp ∧ l ≤ p
     let judged := commanded ∧ k.pd.known = true ∧ k.countInBounds ph
     let met := judged ∧ (soft ∨ target ∨ opened ∨ phase)
     let confirm := min 2 (k.pd.confirm + 1)
     let blanking := min 64 (k.ms.blanking + 1)
     let passed := confirm = 2 ∧ k.ms.active.get .startupBlanking ≤ blanking
     let toward := fun (succ : Successor) (more : Chan → Prop) => ∃ t, exec (.count c ph) s = .next t ∧
       (t.ch c).DwellsToward succ ∧ more (t.ch c) ∧ t.pool = s.pool
     let kept := fun u : Chan => u.ms.reversal = k.ms.reversal ∧ u.ms.override = k.ms.override ∧
       u.ms.marker = k.ms.marker ∧ u.pd.travel = k.pd.travel ∧ u.rps.cells = k.rps.cells ∧ u.rps.summary = k.rps.summary
     let conditionStop := fun x : Condition => ∃ t, exec (.count c ph) s = .next t ∧ (t.ch c).DwellsToward (.fault x) ∧
       kept (t.ch c) ∧ s.RecordTaken t (s.conditionRecord c x (t.ch c).pd.position (t.ch c).pd.known)
     (¬commanded → ¬lost → ¬stopped → ∃ t, exec (.count c ph) s = .next t ∧ (t.ch c).ms = k.ms ∧ (t.ch c).out = k.out ∧
       (t.ch c).rps = k.rps ∧ (t.ch c).pd.travel = k.pd.travel ∧ (t.ch c).ee = { k.ee with sticky := (t.ch c).ee.sticky } ∧
       t.pool = s.pool) ∧
     (commanded → ¬met → ¬lost → ¬stopped → ∃ t, exec (.count c ph) s = .next t ∧
       (t.ch c).ms = { k.ms with
         blanking := blanking
         state := if k.ms.state = .travel ∨ passed then .travel else .startup } ∧
       (k.ms.state = .startup → passed → (t.ch c).ee.top = 0 ∧
         ∀ i : Fin 8, (t.ch c).ee.slots[i] = ⟨k.ee.slots[i].value, .empty⟩) ∧
       (k.ms.state = .travel ∨ ¬passed → (t.ch c).ee.top = k.ee.top ∧ (t.ch c).ee.slots = k.ee.slots) ∧
       (t.ch c).ee.history = k.ee.history ∧ (t.ch c).ee.summary = k.ee.summary ∧ (t.ch c).ee.lane = k.ee.lane ∧
       (t.ch c).out = k.out ∧ (t.ch c).rps = k.rps ∧ (t.ch c).pd.travel = k.pd.travel ∧ t.pool = s.pool) ∧
     (judged → ¬stopped →
       (soft → toward (.idle .completedClosed) (fun u => u.pd.travel = min 65535 (k.pd.travel + 1) ∧ u.ms.reversal = 0 ∧
         u.ms.override = false ∧ u.rps = (k.adapt false false m.filling).rps)) ∧
       (¬soft → target → toward (.idle .targetReached) kept) ∧ (opened → toward (.idle .completedOpen) kept) ∧
       (phase → toward .startup (fun u => kept u ∧ u.ms.motion = some (.normalize .fill) ∧ u.ms.lease = k.ms.lease))) ∧
     (¬met → ¬lost → stopped → conditionStop .periodOverflow) ∧ (lost → ¬stopped → conditionStop .drift) ∧
     (lost → stopped → conditionStop .drift ∨ conditionStop .periodOverflow) ∧
     (met → stopped → conditionStop .periodOverflow ∨ (soft ∧ toward (.idle .completedClosed) (fun _ => True)) ∨
       (¬soft ∧ target ∧ toward (.idle .targetReached) kept) ∨ (opened ∧ toward (.idle .completedOpen) kept) ∨
       (phase ∧ toward .startup kept))) ∧
  (∀ (s : State) (c : ChanId) (ph : HallPhase) (b : BackoffRecord),
     (s.ch c).ms.state = .backoff → (s.ch c).ms.backoff = some b →
     let k := s.ch c
     let stopped := k.pd.overflow ≠ 0 ∧ k.ms.active.get .maskPeriodOverflow ≠ 1
     let met := k.pd.known = true ∧ k.countInBounds ph ∧ b.target ≤ k.counted ph
     let kept := fun u : Chan => u.ms.reversal = k.ms.reversal ∧ u.ms.override = k.ms.override ∧
       u.ms.marker = k.ms.marker ∧ u.pd.travel = k.pd.travel ∧ u.rps.cells = k.rps.cells ∧ u.rps.summary = k.rps.summary
     let reversed := ∃ t, exec (.count c ph) s = .next t ∧ (t.ch c).DwellsToward (.idle .reversed) ∧ kept (t.ch c) ∧
       t.pool = s.pool
     let conditionStop := ∃ t, exec (.count c ph) s = .next t ∧ (t.ch c).DwellsToward (.fault .periodOverflow) ∧
       kept (t.ch c) ∧
       s.RecordTaken t (s.conditionRecord c .periodOverflow (t.ch c).pd.position (t.ch c).pd.known)
     (¬met → ¬stopped → ∃ t, exec (.count c ph) s = .next t ∧ (t.ch c).ms = k.ms ∧ (t.ch c).out = k.out ∧
       (t.ch c).rps = k.rps ∧ (t.ch c).pd.travel = k.pd.travel ∧ (t.ch c).ee = { k.ee with sticky := (t.ch c).ee.sticky } ∧
       t.pool = s.pool) ∧
     (met → ¬stopped → reversed) ∧ (¬met → stopped → conditionStop) ∧ (met → stopped → reversed ∨ conditionStop))

/-- An illegal transition: GLITCH is raised, both levels flip, no count is made, the ring and the timer are cleared, an
unconfirmed drive starts its confirmation anew, and a closing motion is tainted, a DWELL without a motion record being of
the motion whose drive it ended (log 12). With GLITCH unmasked the position becomes UNKNOWN, and a driving channel makes a
condition stop. Of a QUEUED channel with GLITCH unmasked: the position becomes UNKNOWN, and a waiting closing EXPRESS or
GOTO whose position was KNOWN ends in IDLE with MOTION_END POSITION_LOST (waiting while another frame or reply is before
it), its queue entry removed. -/
def Obligations.IllegalTransitionRaisesGlitch : Prop :=
  (∀ (s : State) (c : ChanId),
     let k := s.ch c
     let glitched := fun (t : State) =>
       (t.ch c).ee.sticky = { k.ee.sticky with glitch := true } ∧ (t.ch c).ee.lastStep = k.ee.lastStep ∧
       (t.ch c).pd.filtA = !k.pd.filtA ∧ (t.ch c).pd.filtB = !k.pd.filtB ∧ (t.ch c).pd.position = k.pd.position ∧
       (t.ch c).pd.difference = k.pd.difference ∧ (t.ch c).pd.ring = [] ∧ (t.ch c).pd.timer = 0 ∧
       (t.ch c).pd.overflow = 0 ∧ (t.ch c).pd.confirm = (if k.pd.confirm = 2 then 2 else 0) ∧
       (t.ch c).ms.taint = (k.ms.taint || k.inClosingMotion) ∧ s.SameOthers t c ∧ s.SameDevice t
     (k.ms.active.get .maskGlitch = 1 → ∃ t, exec (.illegalTransition c) s = .next t ∧ glitched t ∧
       (t.ch c).pd.known = k.pd.known ∧ (t.ch c).pd.watchdog = k.pd.watchdog ∧ (t.ch c).ms.state = k.ms.state ∧
       (t.ch c).ms.motion = k.ms.motion ∧ (t.ch c).out = k.out ∧ (t.ch c).rps = k.rps ∧ s.SameShared t ∧
       t.pool = s.pool) ∧
     (k.ms.active.get .maskGlitch ≠ 1 → k.ms.state.driving = true → ∃ t, exec (.illegalTransition c) s = .next t ∧
       glitched t ∧ (t.ch c).pd.known = false ∧ (t.ch c).DwellsToward (.fault .glitch) ∧ s.SameShared t ∧
       (t.ch c).ms.reversal = k.ms.reversal ∧
       (∀ r rest, s.pool.free = r :: rest → t.pool.free = rest ∧ t.pool.waiting = s.pool.waiting ++ [r] ∧
         t.pool.records[r].cause = .condition .glitch ∧ t.pool.records[r].known = false ∧
         t.pool.records[r].chan = c ∧ t.pool.records[r].applied = k.out.applied)) ∧
     (k.ms.active.get .maskGlitch ≠ 1 → k.ms.state.driving = false → k.ms.state ≠ .queued →
       ∃ t, exec (.illegalTransition c) s = .next t ∧ glitched t ∧ (t.ch c).pd.known = false ∧
         (t.ch c).ms.state = k.ms.state ∧ (t.ch c).out = k.out ∧ s.SameShared t ∧ t.pool = s.pool)) ∧
  (∀ (s : State) (c : ChanId), (s.ch c).ms.active.get .maskGlitch ≠ 1 → (s.ch c).ms.state = .queued →
     let k := s.ch c
     (k.pd.known = false ∨ k.ms.motion.any Motion.unattendedClose = false →
       ∃ t, exec (.illegalTransition c) s = .next t ∧ (t.ch c).pd.known = false ∧ (t.ch c).pd.position = k.pd.position ∧
         (t.ch c).ee.sticky = { k.ee.sticky with glitch := true } ∧ (t.ch c).ms = k.ms ∧ (t.ch c).out = k.out ∧
         (t.ch c).rps = k.rps ∧ s.SameOthers t c ∧ s.SameShared t ∧ t.pool = s.pool) ∧
     (k.pd.known = true → k.ms.motion.any Motion.unattendedClose = true → c ∉ s.arbiter.holders →
       ∃ t, exec (.illegalTransition c) s = .next t ∧ (t.ch c).pd.known = false ∧ (t.ch c).pd.position = k.pd.position ∧
         (t.ch c).ee.sticky = { k.ee.sticky with glitch := true } ∧ (t.ch c).ms.state = .idle ∧
         (t.ch c).ms.motion = none ∧ (t.ch c).ms.lease = none ∧ (t.ch c).ms.taint = k.ms.taint ∧
         (t.ch c).out.mode = .off ∧ (t.ch c).ee.lane = none ∧ (t.ch c).rps = k.rps ∧
         t.arbiter.holders = s.arbiter.holders ∧
         t.arbiter.queue = s.arbiter.queue.filter (fun e => e.chan != c) ∧
         (s.noticesWait → t.link.notices.motionEnd[c] = some ⟨.positionLost, k.pd.position, false⟩) ∧
         s.SameOthers t c ∧ s.SameDevice t ∧ s.SameLink t ∧ t.pool = s.pool))

/-- The interval timer passes 65535: the overflow count rises and the timer returns to 0; the second time it holds, and a
driving channel stalls as at its watchdog's expiry. -/
def Obligations.IntervalTimerOverflowCounts : Prop :=
  ∀ (s : State) (c : ChanId),
    let wrapped := fun n : Nat => s.setCh c { s.ch c with pd := { (s.ch c).pd with
      timer := 0, prescaler := 0, overflow := n } }
    ((s.ch c).pd.overflow = 0 → exec (.intervalTimerOverflow c) s = .next (wrapped 1).serve) ∧
    ((s.ch c).pd.overflow = 1 → (s.ch c).ms.state.driving = false →
      exec (.intervalTimerOverflow c) s = .next (wrapped 2).serve) ∧
    ((s.ch c).pd.overflow = 1 → (s.ch c).ms.state.driving = true → (s.ch c).pd.watchdog.isSome = true →
      exec (.intervalTimerOverflow c) s = exec (.stallWatchdogExpiry c) (wrapped 2))

/-- A stall by the channel's state, motion, position and End mode; every row leaves the other channels, the slots and the
shared state alone, and the profile but at a closed end and at the end of SEEK. At a closed end within tolerance the
profile is the adapted one, as the statement on adaptation says it.
An override stop takes its OVERRIDE_STOP record and a stall pinch its PINCH_STALL record, each with the summary, window
and history as they stand; an unmasked drift at the closed end takes its CONDITION record, which shows the position
UNKNOWN (log 16). Every other row takes no record. -/
def Obligations.StallIsTakenByStateAndMotion : Prop :=
  ∀ (s : State) (c : ChanId) (m : Motion), (s.ch c).pd.watchdog.isSome = true →
    let k := s.ch c
    let st := k.ms.state
    let sealed := k.pd.position < (k.ms.active.get .zSeal : Int)
    let soft := k.ms.active.get .endMode = 1
    let closing := st = .travel ∧ m.dir = .closing ∧ m.seeking = false
    let newest := (List.finRange 8).map (fun i => k.ee.slots[k.ee.top - i])
    let stopRecord := fun (cause : IncidentCause) (reversal : Nat) => (⟨c, cause, s.clock.ms, k.pd.position, k.pd.known,
      zoneAt k.ms.active k.pd.position, reversal, s.supply.u, k.out.applied, s.effort.road, s.effort.hold.isSome,
      some ⟨k.ee.summary, newest, k.ee.history⟩⟩ : Incident)
    let records := fun (i : Option Incident) (t : State) => match i with
      | some i => s.RecordTaken t i
      | none => t.pool = s.pool
    let ends := fun (succ : Successor) (taken : Option Incident) (more : Chan → Prop) =>
      ∃ t, exec (.stallWatchdogExpiry c) s = .next t ∧ (t.ch c).DwellsToward succ ∧ more (t.ch c) ∧ s.SameOthers t c ∧
        s.SameShared t ∧ records taken t
    let kept := fun (u : Chan) => u.pd.position = k.pd.position ∧ u.pd.known = k.pd.known ∧
      u.pd.travel = k.pd.travel ∧ u.rps.cells = k.rps.cells ∧ u.rps.summary = k.rps.summary
    (st = .backoff → ends (.idle .backoffStalled) none (fun u => kept u ∧ u.ms.reversal = k.ms.reversal)) ∧
    (k.ms.motion = some m →
      (m.seeking = true → st = .startup ∨ st = .travel → ends .startup none (fun u => u.pd.position = 0 ∧ u.pd.known = true ∧
        u.pd.travel = k.pd.travel ∧ u.ms.reversal = 0 ∧ u.ms.override = false ∧ u.ms.motion = some (.normalize .openUp) ∧
        u.rps.cells = Vector.replicate 64 ⟨.empty, 0, 0, 0⟩ ∧ u.rps.summary = k.rps.summary)) ∧
      (st = .startup → m.seeking = false → ends (.idle .blocked) none (fun u => kept u ∧ u.ms.reversal = k.ms.reversal)) ∧
      (st = .travel → m.dir = .opening → ends (.idle .blocked) none (fun u => kept u ∧ u.ms.reversal = k.ms.reversal)) ∧
      (closing → soft → k.pd.known = false ∨ sealed →
        ends (.idle .blocked) none (fun u => kept u ∧ u.ms.reversal = k.ms.reversal)) ∧
      (closing → ¬soft → k.pd.known = false → ends (.idle .completedClosed) none (fun u => u.pd.position = 0 ∧
        u.pd.known = true ∧ u.pd.travel = min 65535 (k.pd.travel + 1) ∧ u.ms.reversal = 0 ∧ u.ms.override = false ∧
        u.rps.cells = k.rps.cells ∧ u.rps.summary = ⟨.barredPosition, 0, 0, 0, 0, 0⟩)) ∧
      (closing → ¬soft → k.pd.known = true → sealed → k.pd.position.natAbs ≤ k.ms.active.get .endTolerance →
        ends (.idle .completedClosed) none (fun u => u.pd.position = 0 ∧ u.pd.known = true ∧
          u.pd.travel = min 65535 (k.pd.travel + 1) ∧ u.ms.reversal = 0 ∧ u.ms.override = false ∧
          u.ee.sticky = k.ee.sticky ∧ u.rps = (k.adapt false false m.filling).rps)) ∧
      (closing → ¬soft → k.pd.known = true → sealed → k.ms.active.get .endTolerance < k.pd.position.natAbs →
        k.ms.active.get .maskDrift = 1 → ends (.idle .completedClosed) none (fun u => u.pd.position = 0 ∧ u.pd.known = true ∧
          u.pd.travel = min 65535 (k.pd.travel + 1) ∧ u.ms.reversal = 0 ∧ u.ee.sticky.drift = true ∧
          u.rps.cells = k.rps.cells ∧ u.rps.summary = ⟨.barredDrift, 0, 0, 0, 0, 0⟩)) ∧
      (closing → ¬soft → k.pd.known = true → sealed → k.ms.active.get .endTolerance < k.pd.position.natAbs →
        k.ms.active.get .maskDrift ≠ 1 → ends (.fault .drift)
          (some (s.conditionRecord c .drift k.pd.position false)) (fun u => u.pd.position = k.pd.position ∧ u.pd.known = false ∧ u.pd.travel = k.pd.travel ∧ u.ms.reversal = k.ms.reversal ∧ u.ee.sticky.drift = true ∧
          u.rps.cells = k.rps.cells ∧ u.rps.summary = ⟨.barredDrift, 0, 0, 0, 0, 0⟩)) ∧
      (closing → k.pd.known = true → ¬sealed → k.ms.override = true → ends (.idle .overrideStop)
        (some (stopRecord .overrideStop k.ms.reversal)) (fun u => kept u ∧ u.ms.reversal = k.ms.reversal ∧ u.ms.override = true ∧ u.ms.marker = k.ms.marker)) ∧
      (closing → k.pd.known = true → ¬sealed → k.ms.override = false → ends .backoff
        (some (stopRecord .pinchStall (min 7 (k.ms.reversal + 1)))) (fun u => kept u ∧ u.ms.reversal = min 7 (k.ms.reversal + 1) ∧ u.ms.marker = true)))

/-- A pinch response to a stall pinch: the reversal counter, the override flag, the marker, the back-off target, and the
record the pool takes, or, with no record free, the lost-incident count, all else the same. -/
def Obligations.PinchResponseTakesARecord : Prop :=
  ∀ (s : State) (c : ChanId) (m : Motion), (s.ch c).pd.watchdog.isSome = true → (s.ch c).ms.motion = some m →
    (s.ch c).ms.state = .travel → m.dir = .closing → m.seeking = false → (s.ch c).pd.known = true →
    ((s.ch c).ms.active.get .zSeal : Int) ≤ (s.ch c).pd.position → (s.ch c).ms.override = false →
    let k := s.ch c
    let n := min 7 (k.ms.reversal + 1)
    ∃ t, exec (.stallWatchdogExpiry c) s = .next t ∧ (t.ch c).DwellsToward .backoff ∧ (t.ch c).ms.reversal = n ∧
      ((t.ch c).ms.override = true ↔ k.ms.active.get .reversalLimit ≤ n) ∧ (t.ch c).ms.marker = true ∧
      (t.ch c).ms.backoff = some ⟨min (k.ms.active.get .travelLength : Int)
        (k.pd.position + k.ms.active.get .backoffDistance), none⟩ ∧
      (∀ r rest, s.pool.free = r :: rest → t.pool.free = rest ∧ t.pool.waiting = s.pool.waiting ++ [r] ∧
        t.pool.lost = s.pool.lost ∧ (∀ q, q ≠ r → t.pool.records[q] = s.pool.records[q]) ∧
        t.pool.records[r] = ⟨c, .pinchStall, s.clock.ms, k.pd.position, true, zoneAt k.ms.active k.pd.position, n,
          s.supply.u, k.out.applied, s.effort.road, s.effort.hold.isSome,
          some ⟨k.ee.summary, (List.finRange 8).map (fun i => k.ee.slots[k.ee.top - i]), k.ee.history⟩⟩ ∧
        (s.link.sending.isSome = true ∨ s.link.replies ≠ [] → t.link.notices.incident[c] = some r)) ∧
      (s.pool.free = [] → t.pool = { s.pool with lost := min 255 (s.pool.lost + 1) } ∧
        (s.link.sending.isSome = true ∨ s.link.replies ≠ [] → t.link.notices = s.link.notices)) ∧
      s.SameOthers t c ∧ s.SameShared t

/-! ## Evaluations -/

/-- Stages 1 to 4 of an evaluation, for every mask and every cell: Ue, Pn and X with their clamps, the conditions raised
in order, and how it ends: a condition stop at the first unmasked condition, the diverted slot of a masked LOW_DRIVE, the
NEUTRAL slot where the cell gives no reference and the condition is masked or the motion fills, or the VALID excess. What
such an evaluation of the channel's own drive (log 8) does to the part: the sticky flags of the conditions raised, the
last-step flag and the taint; at a condition stop DWELL toward FAULT with its record; otherwise the slot at the advanced
pointer, the measurement in the scratch, and the summary. An evaluation stamped STARTUP writes a slot only in STARTUP, and
one in the seal zone, diverted, or with a window not full takes no decision. -/
def Obligations.EvaluationStagesComputeTheExcess : Prop :=
  (∀ i : EvalInput,
     let masked := fun x : Condition => i.active.get x.mask = 1 ∨ (x = .noReference ∧ i.filling = true)
     let range := i.u < 6000 ∨ 18000 < i.u
     let ue := max 6000 (min i.u 18000) * i.duty / 1024
     let raw := (i.period * ue + 6750) / 13500
     let pn := max 1 (min raw 65535)
     let x := (((pn : Int) - i.cell.reference) * i.gain).tdiv 256
     let r1 := if range then [Condition.supplyRange] else []
     let r3 := if 65535 < raw then r1 ++ [Condition.periodOverflow] else r1
     let go0 := i.overflowed = false ∨ masked .periodOverflow
     let go1 := go0 ∧ (¬range ∨ masked .supplyRange)
     let go3 := go1 ∧ 3000 ≤ ue ∧ (raw ≤ 65535 ∨ masked .periodOverflow)
     (¬go0 → i.run = ⟨[], none, .stopped .periodOverflow⟩) ∧
     (go0 → range → ¬masked .supplyRange → i.run = ⟨[.supplyRange], none, .stopped .supplyRange⟩) ∧
     (go1 → ue < 3000 → masked .lowDrive → i.run = ⟨r1 ++ [.lowDrive], none, .diverted⟩) ∧
     (go1 → ue < 3000 → ¬masked .lowDrive → i.run = ⟨r1 ++ [.lowDrive], none, .stopped .lowDrive⟩) ∧
     (go1 → 3000 ≤ ue → 65535 < raw → ¬masked .periodOverflow →
       i.run = ⟨r1 ++ [.periodOverflow], none, .stopped .periodOverflow⟩) ∧
     (go3 → i.cell.state = .empty → masked .noReference →
       i.run = ⟨r3 ++ [.noReference], some pn, .complete 0 .neutral⟩) ∧
     (go3 → i.cell.state = .empty → ¬masked .noReference →
       i.run = ⟨r3 ++ [.noReference], some pn, .stopped .noReference⟩) ∧
     (go3 → i.cell.state = .valid → -2048 ≤ x → x ≤ 2047 → i.run = ⟨r3, some pn, .complete x .valid⟩) ∧
     (go3 → i.cell.state = .valid → x < -2048 ∨ 2047 < x → masked .effortSat →
       i.run = ⟨r3 ++ [.effortSat], some pn, .complete (max (-2048) (min 2047 x)) .valid⟩) ∧
     (go3 → i.cell.state = .valid → x < -2048 ∨ 2047 < x → ¬masked .effortSat →
       i.run = ⟨r3 ++ [.effortSat], some pn, .stopped .effortSat⟩)) ∧
  (∀ (s : State) (c : ChanId) (q : EvalRequest) (before after : List EvalRequest),
     s.effort.requests = before ++ q :: after → (∀ r ∈ before, r.chan ≠ c) → q.chan = c → q.drive = (s.ch c).pd.drive →
     (s.ch c).ms.state = .travel ∨ ((s.ch c).ms.state = .startup ∧ q.inTravel = false) →
     let k := s.ch c
     let ps := k.ms.active
     let cell : Fin 64 := cellIndex (ps.get .travelLength) q.position
     let o := (⟨q.period, q.overflowed, s.supply.u, k.out.applied, ps.get .closingGain,
       decide (k.ms.motion = some (.normalize .fill)), ps, k.rps.cells[cell]⟩ : EvalInput).run
     let unclean := q.overflowed = true ∨ o.raised ≠ []
     let pair := k.rps.scratch[cell]
     let rest := { s.effort with requests := before ++ after }
     let standing := min 2047 ((if q.position < (ps.get .zPinch : Int) then ps.get .tPinch else ps.get .tUpper) +
       s.effort.road * ps.get .tRoad + (if k.ms.override = true then ps.get .tOvr else 0) +
       (if s.effort.hold.isSome = true then ps.get .tCm else 0))
     ∃ t, exec (.evaluation c) s = .next t ∧
       cell.val = min 63 ((max q.position 0).toNat / ((ps.get .travelLength + 63) / 64)) ∧
       (∀ x : Condition, (t.ch c).ee.sticky.get x = true ↔ k.ee.sticky.get x = true ∨ x ∈ o.raised) ∧
       ((t.ch c).ee.lastStep = true ↔ unclean) ∧
       ((t.ch c).ms.taint = true ↔ k.ms.taint = true ∨ unclean ∨ ((∀ x, o.ending ≠ .stopped x) ∧
         (3 ≤ s.effort.road ∨ (q.inTravel = true ∧ t.effort.hold.isSome = true)))) ∧
       (∀ x, o.ending = .stopped x → (t.ch c).DwellsToward (.fault x) ∧
         (t.ch c).ee = { k.ee with sticky := (t.ch c).ee.sticky, lastStep := (t.ch c).ee.lastStep } ∧
         (t.ch c).ms.reversal = k.ms.reversal ∧ (t.ch c).ms.override = k.ms.override ∧
         (t.ch c).ms.marker = k.ms.marker ∧ (t.ch c).pd.position = k.pd.position ∧ (t.ch c).pd.known = k.pd.known ∧
         (t.ch c).pd.travel = k.pd.travel ∧ (t.ch c).rps.cells = k.rps.cells ∧ (t.ch c).rps.summary = k.rps.summary ∧
         t.effort = rest ∧ s.RecordTaken t (s.conditionRecord c x k.pd.position k.pd.known)) ∧
       (∀ sl : Slot, (o.ending = .diverted ∧ sl = ⟨0, .neutral⟩) ∨ o.ending = .complete sl.value sl.tag →
         let e := (t.ch c).ee
         let sealed := q.position < (ps.get .zSeal : Int)
         let written := e.top = k.ee.top + 1 ∧ e.slots[k.ee.top + 1] = sl ∧
           ∀ i : Fin 8, i ≠ k.ee.top + 1 → e.slots[i] = k.ee.slots[i]
         let goesOn := (t.ch c).ms = { k.ms with taint := (t.ch c).ms.taint } ∧ (t.ch c).pd = k.pd ∧
           (t.ch c).out = k.out ∧ (t.ch c).rps = { k.rps with scratch := (t.ch c).rps.scratch } ∧
           (∀ i : Fin 64, (t.ch c).rps.scratch[i] = if i = cell then match o.pn with
               | some pn => if pair.count < 4095 then ⟨pair.sum + pn, pair.count + 1⟩ else pair
               | none => pair
             else k.rps.scratch[i]) ∧
           e.history = k.ee.history ∧ e.lane = k.ee.lane ∧ t.effort = rest ∧ t.pool = s.pool ∧
           e.summary.x = some (sl.value, sl.tag) ∧ e.summary.k = some cell ∧ e.AverageIs e.summary.a
         (q.inTravel = false → goesOn ∧ e.summary.teff = none ∧ (k.ms.state = .startup → written) ∧
           (k.ms.state = .travel → e.top = k.ee.top ∧ e.slots = k.ee.slots)) ∧
         (q.inTravel = true → written) ∧
         (q.inTravel = true → sealed ∨ o.ending = .diverted ∨
           (¬e.Full ∧ ¬(sl.tag = .valid ∧ (ps.get .tHard : Int) < sl.value)) → goesOn ∧
           (sealed ∨ ¬e.Full → e.summary.teff = none) ∧ (¬sealed → e.Full → e.summary.teff = some standing))) ∧
       s.SameOthers t c ∧ t.arbiter = s.arbiter ∧ t.device = s.device ∧ t.lines = s.lines ∧ t.supply = s.supply ∧
       t.clock = s.clock ∧ s.SameLink t)

/-- An evaluation request of a drive the channel has left is dropped: it changes nothing but the list of requests.
A clean evaluation stamped TRAVEL in the seal zone: the slot is written at the advanced pointer, the measurement added to
its scratch pair, the summary set with T_eff absent, the last-step flag cleared; no decision is taken. -/
def Obligations.SealZoneEvaluationWritesTheWindow : Prop :=
  (∀ (s : State) (c : ChanId) (q : EvalRequest) (before after : List EvalRequest),
     s.effort.requests = before ++ q :: after → (∀ r ∈ before, r.chan ≠ c) → q.chan = c →
     ((s.ch c).ms.state ≠ .startup ∧ (s.ch c).ms.state ≠ .travel) ∨ q.drive ≠ (s.ch c).pd.drive →
     exec (.evaluation c) s = .next (State.serve { s with effort := { s.effort with requests := before ++ after } })) ∧
  (∀ (s : State) (c : ChanId) (q : EvalRequest) (rest : List EvalRequest),
     s.effort.requests = q :: rest → q.chan = c → q.drive = (s.ch c).pd.drive → (s.ch c).ms.state = .travel →
     q.inTravel = true → q.overflowed = false → q.position < ((s.ch c).ms.active.get .zSeal : Int) →
     let k := s.ch c
     let cell := cellIndex (k.ms.active.get .travelLength) q.position
     let ue := s.supply.u * k.out.applied / 1024
     let pn := (q.period * ue + 6750) / 13500
     let x := (((pn : Int) - k.rps.cells[cell].reference) * k.ms.active.get .closingGain).tdiv 256
     6000 ≤ s.supply.u → s.supply.u ≤ 18000 → 3000 ≤ ue → 1 ≤ pn → pn ≤ 65535 → k.rps.cells[cell].state = .valid →
     -2048 ≤ x → x ≤ 2047 → k.rps.scratch[cell].count < 4095 →
     ∃ t, exec (.evaluation c) s = .next t ∧ t.effort = { s.effort with requests := rest } ∧
       (t.ch c).ee.top = k.ee.top + 1 ∧ (t.ch c).ee.slots[k.ee.top + 1] = ⟨x, .valid⟩ ∧
       (∀ i : Fin 8, i ≠ k.ee.top + 1 → (t.ch c).ee.slots[i] = k.ee.slots[i]) ∧
       (t.ch c).ee.history = k.ee.history ∧ (t.ch c).ee.sticky = k.ee.sticky ∧ (t.ch c).ee.lastStep = false ∧
       (t.ch c).ee.lane = k.ee.lane ∧ (t.ch c).ee.summary.x = some (x, .valid) ∧ (t.ch c).ee.summary.k = some cell ∧
       (t.ch c).ee.summary.teff = none ∧
       (t.ch c).rps.scratch[cell] = ⟨k.rps.scratch[cell].sum + pn, k.rps.scratch[cell].count + 1⟩ ∧
       (∀ i : Fin 64, i ≠ cell → (t.ch c).rps.scratch[i] = k.rps.scratch[i]) ∧ (t.ch c).rps.cells = k.rps.cells ∧
       (t.ch c).ms.taint = (k.ms.taint || decide (3 ≤ s.effort.road) || s.effort.hold.isSome) ∧
       (t.ch c).ms.state = .travel ∧ (t.ch c).ms.motion = k.ms.motion ∧ (t.ch c).pd = k.pd ∧ (t.ch c).out = k.out ∧
       s.SameOthers t c ∧ t.arbiter = s.arbiter ∧ t.pool = s.pool ∧ s.SameLink t)

/-- The hard limit: a clean evaluation stamped TRAVEL outside the seal zone whose X exceeds T_hard is a pinch at once,
whatever the window, the road and the hold; with the override flag clear the channel backs off from the position of the
count. For every VALID excess above T_hard of a complete evaluation of the channel's own drive (log 8), with masked
conditions raised and overflow marks included: the slot, the summary (A only with a full window, T_eff of the terms as
they stand), no history entry and no lane; with the override flag clear the back-off with its record, whose zone is that
of the recorded position, the position of the count (log 39), and with the flag set an override stop with its record. -/
def Obligations.HardLimitPinchesAtOneCount : Prop :=
  (∀ (s : State) (c : ChanId) (q : EvalRequest) (rest : List EvalRequest),
     s.effort.requests = q :: rest → q.chan = c → q.drive = (s.ch c).pd.drive → (s.ch c).ms.state = .travel →
     q.inTravel = true → q.overflowed = false → ((s.ch c).ms.active.get .zSeal : Int) ≤ q.position →
     let k := s.ch c
     let cell := cellIndex (k.ms.active.get .travelLength) q.position
     let ue := s.supply.u * k.out.applied / 1024
     let pn := (q.period * ue + 6750) / 13500
     let x := (((pn : Int) - k.rps.cells[cell].reference) * k.ms.active.get .closingGain).tdiv 256
     6000 ≤ s.supply.u → s.supply.u ≤ 18000 → 3000 ≤ ue → 1 ≤ pn → pn ≤ 65535 → k.rps.cells[cell].state = .valid →
     (k.ms.active.get .tHard : Int) < x → x ≤ 2047 → k.ms.override = false →
     ∃ t, exec (.evaluation c) s = .next t ∧ (t.ch c).DwellsToward .backoff ∧ (t.ch c).ms.marker = true ∧
       (t.ch c).ms.reversal = min 7 (k.ms.reversal + 1) ∧
       (t.ch c).ms.backoff = some ⟨min (k.ms.active.get .travelLength : Int)
         (q.position + k.ms.active.get .backoffDistance), none⟩ ∧
       (t.ch c).ee.history = k.ee.history ∧ (t.ch c).ee.lane = k.ee.lane ∧
       (t.ch c).ee.summary.x = some (x, .valid) ∧ (t.ch c).ee.summary.teff.isSome = true ∧
       (∀ r l, s.pool.free = r :: l → t.pool.records[r].cause = .pinchHard ∧ t.pool.records[r].position = q.position) ∧
       s.SameOthers t c ∧ t.arbiter = s.arbiter) ∧
  (∀ (s : State) (c : ChanId) (q : EvalRequest) (before after : List EvalRequest) (x : Int),
     s.effort.requests = before ++ q :: after → (∀ r ∈ before, r.chan ≠ c) → q.chan = c → q.drive = (s.ch c).pd.drive →
     (s.ch c).ms.state = .travel → q.inTravel = true →
     let k := s.ch c
     let ps := k.ms.active
     let cell : Fin 64 := cellIndex (ps.get .travelLength) q.position
     let o := (⟨q.period, q.overflowed, s.supply.u, k.out.applied, ps.get .closingGain,
       decide (k.ms.motion = some (.normalize .fill)), ps, k.rps.cells[cell]⟩ : EvalInput).run
     o.ending = .complete x .valid → (ps.get .zSeal : Int) ≤ q.position → (ps.get .tHard : Int) < x →
     let slot := fun i : Fin 8 => if i = k.ee.top + 1 then (⟨x, .valid⟩ : Slot) else k.ee.slots[i]
     let newest := (List.finRange 8).map (fun i => slot (k.ee.top + 1 - i))
     let zone := if q.position < (ps.get .zPinch : Int) then Zone.pinch else .upper
     let teff := min 2047 ((if zone = .upper then ps.get .tUpper else ps.get .tPinch) + s.effort.road * ps.get .tRoad +
       (if k.ms.override = true then ps.get .tOvr else 0) + (if s.effort.hold.isSome = true then ps.get .tCm else 0))
     let n := min 7 (k.ms.reversal + 1)
     ∃ (t : State) (a : Option Int), exec (.evaluation c) s = .next t ∧ (t.ch c).ee.top = k.ee.top + 1 ∧
       (∀ i : Fin 8, (t.ch c).ee.slots[i] = slot i) ∧ (t.ch c).ee.AverageIs a ∧
       (t.ch c).ee.summary = ⟨some (x, .valid), some cell, a, some teff⟩ ∧ (t.ch c).ee.history = k.ee.history ∧
       (t.ch c).ee.lane = k.ee.lane ∧ t.effort = { s.effort with requests := before ++ after } ∧
       (∀ y : Condition, (t.ch c).ee.sticky.get y = true ↔ k.ee.sticky.get y = true ∨ y ∈ o.raised) ∧
       ((t.ch c).ee.lastStep = true ↔ q.overflowed = true ∨ o.raised ≠ []) ∧
       (t.ch c).rps.cells = k.rps.cells ∧ (t.ch c).pd.position = k.pd.position ∧ (t.ch c).pd.known = k.pd.known ∧
       (k.ms.override = false → (t.ch c).DwellsToward .backoff ∧ (t.ch c).ms.reversal = n ∧
         ((t.ch c).ms.override = true ↔ ps.get .reversalLimit ≤ n) ∧ (t.ch c).ms.marker = true ∧
         (t.ch c).ms.backoff = some ⟨min (ps.get .travelLength : Int) (q.position + ps.get .backoffDistance), none⟩ ∧
         s.RecordTaken t ⟨c, .pinchHard, s.clock.ms, q.position, true, zone, n, s.supply.u, k.out.applied, s.effort.road,
           s.effort.hold.isSome, some ⟨(t.ch c).ee.summary, newest, k.ee.history⟩⟩) ∧
       (k.ms.override = true → (t.ch c).DwellsToward (.idle .overrideStop) ∧
         (t.ch c).ms.reversal = k.ms.reversal ∧ (t.ch c).ms.override = true ∧ (t.ch c).ms.marker = k.ms.marker ∧
         s.RecordTaken t ⟨c, .overrideStop, s.clock.ms, k.pd.position, k.pd.known, zoneAt ps k.pd.position, k.ms.reversal,
           s.supply.u, k.out.applied, s.effort.road, s.effort.hold.isSome,
           some ⟨(t.ch c).ee.summary, newest, k.ee.history⟩⟩) ∧
       s.SameOthers t c ∧ t.arbiter = s.arbiter ∧ t.device = s.device ∧ t.lines = s.lines ∧ t.supply = s.supply ∧
       t.clock = s.clock ∧ s.SameLink t)

/-- The decision of an evaluation with a full window outside the seal zone: T_eff0 and the lane check, the hold, T_eff,
the entry b shifted into the history, and PINCH_EFFORT when the newest K entries hold at least M entries of 1. A complete
evaluation of the channel's own drive (log 8) stamped TRAVEL outside the seal zone, whose window is full with its slot and
which is not above T_hard, takes that decision: clear, it goes on; PINCH_EFFORT, with the override flag clear it backs off
from the position of the count with its record, whose zone is that of the recorded position (log 39), and with the flag
set it makes an override stop with its record. -/
def Obligations.DecisionFollowsThreshold : Prop :=
  (∀ (s : State) (c : ChanId) (z : Zone) (a : Int), z ≠ .seal →
     let k := s.ch c
     let ps := k.ms.active
     let base := (if z = .upper then ps.get .tUpper else ps.get .tPinch) + s.effort.road * ps.get .tRoad +
       (if k.ms.override = true then ps.get .tOvr else 0)
     let marks := decide ((min 2047 base : Nat) < a)
     let young := (allChans.filter (fun d => decide (d ≠ c ∧ (s.ch d).ms.state = .travel ∧
       ∃ mark, (s.ch d).ee.lane = some mark ∧ (s.clock.ms - mark).toNat < s.device.cmWindow))).length
     let hold := if marks = true ∧ 2 ≤ young then some (s.clock.ms + BitVec.ofNat 32 s.device.holdTime)
       else s.effort.hold
     let teff := min 2047 (base + (if hold.isSome = true then ps.get .tCm else 0))
     let history := (decide ((teff : Int) < a) :: k.ee.history).take 8
     let r := s.decide102 c z a
     r.2.1 = teff ∧ r.2.2.effort = { s.effort with hold := hold } ∧ (r.2.2.ch c).ee.history = history ∧
     (r.2.2.ch c).ee.lane = (if marks = true then some s.clock.ms else k.ee.lane) ∧
     r.1 = (if ps.get .persistenceCount ≤ ((history.take (ps.get .persistenceDepth)).filter (fun b => b)).length
       then .pinch .pinchEffort else .clear) ∧ s.SameOthers r.2.2 c) ∧
  (∀ (s : State) (c : ChanId) (q : EvalRequest) (before after : List EvalRequest) (x : Int) (tag : SlotTag),
     s.effort.requests = before ++ q :: after → (∀ r ∈ before, r.chan ≠ c) → q.chan = c → q.drive = (s.ch c).pd.drive →
     (s.ch c).ms.state = .travel → q.inTravel = true →
     let k := s.ch c
     let ps := k.ms.active
     let cell : Fin 64 := cellIndex (ps.get .travelLength) q.position
     let o := (⟨q.period, q.overflowed, s.supply.u, k.out.applied, ps.get .closingGain,
       decide (k.ms.motion = some (.normalize .fill)), ps, k.rps.cells[cell]⟩ : EvalInput).run
     o.ending = .complete x tag → (ps.get .zSeal : Int) ≤ q.position → (tag = .valid → x ≤ (ps.get .tHard : Int)) →
     (∀ i : Fin 8, i ≠ k.ee.top + 1 → k.ee.slots[i].tag ≠ .empty) →
     let slot := fun i : Fin 8 => if i = k.ee.top + 1 then (⟨x, tag⟩ : Slot) else k.ee.slots[i]
     let newest := (List.finRange 8).map (fun i => slot (k.ee.top + 1 - i))
     let a := (newest.map Slot.value).sum.fdiv 8
     let zone := if q.position < (ps.get .zPinch : Int) then Zone.pinch else .upper
     let base := (if zone = .upper then ps.get .tUpper else ps.get .tPinch) + s.effort.road * ps.get .tRoad +
       (if k.ms.override = true then ps.get .tOvr else 0)
     let marks := decide ((min 2047 base : Nat) < a)
     let young := (allChans.filter (fun d => decide (d ≠ c ∧ (s.ch d).ms.state = .travel ∧
       ∃ mark, (s.ch d).ee.lane = some mark ∧ (s.clock.ms - mark).toNat < s.device.cmWindow))).length
     let hold := if marks = true ∧ 2 ≤ young then some (s.clock.ms + BitVec.ofNat 32 s.device.holdTime)
       else s.effort.hold
     let teff := min 2047 (base + (if hold.isSome = true then ps.get .tCm else 0))
     let history := (decide ((teff : Int) < a) :: k.ee.history).take 8
     let summary : Summary := ⟨some (x, tag), some cell, some a, some teff⟩
     let pinched := ps.get .persistenceCount ≤ ((history.take (ps.get .persistenceDepth)).filter (fun b => b)).length
     let n := min 7 (k.ms.reversal + 1)
     ∃ t, exec (.evaluation c) s = .next t ∧ (t.ch c).ee.top = k.ee.top + 1 ∧
       (∀ i : Fin 8, (t.ch c).ee.slots[i] = slot i) ∧ (t.ch c).ee.history = history ∧
       (t.ch c).ee.lane = (if marks = true then some s.clock.ms else k.ee.lane) ∧ (t.ch c).ee.summary = summary ∧
       t.effort = { s.effort with requests := before ++ after, hold := hold } ∧
       (t.ch c).rps.cells = k.rps.cells ∧ (t.ch c).pd.position = k.pd.position ∧ (t.ch c).pd.known = k.pd.known ∧
       (¬pinched → (t.ch c).ms = { k.ms with taint := (t.ch c).ms.taint } ∧ (t.ch c).pd = k.pd ∧
         (t.ch c).out = k.out ∧ t.pool = s.pool) ∧
       (pinched → k.ms.override = false → (t.ch c).DwellsToward .backoff ∧ (t.ch c).ms.reversal = n ∧
         ((t.ch c).ms.override = true ↔ ps.get .reversalLimit ≤ n) ∧ (t.ch c).ms.marker = true ∧
         (t.ch c).ms.backoff = some ⟨min (ps.get .travelLength : Int) (q.position + ps.get .backoffDistance), none⟩ ∧
         s.RecordTaken t ⟨c, .pinchEffort, s.clock.ms, q.position, true, zone, n, s.supply.u, k.out.applied, s.effort.road,
           hold.isSome, some ⟨summary, newest, history⟩⟩) ∧
       (pinched → k.ms.override = true → (t.ch c).DwellsToward (.idle .overrideStop) ∧
         (t.ch c).ms.reversal = k.ms.reversal ∧ (t.ch c).ms.override = true ∧ (t.ch c).ms.marker = k.ms.marker ∧
         s.RecordTaken t ⟨c, .overrideStop, s.clock.ms, k.pd.position, k.pd.known, zoneAt ps k.pd.position, k.ms.reversal,
           s.supply.u, k.out.applied, s.effort.road, hold.isSome, some ⟨summary, newest, history⟩⟩) ∧
       s.SameOthers t c ∧ t.arbiter = s.arbiter ∧ t.device = s.device ∧ t.lines = s.lines ∧ t.supply = s.supply ∧
       t.clock = s.clock ∧ s.SameLink t)

/-! ## Profiles -/

/-- The adaptation of one cell: left alone without measurements, first filled, moved in band, struck, re-anchored at the
third strike. The adaptation at a closed end: barred by an UNKNOWN position, by a drift, or by a taint outside FILL, it
leaves the cells and clears the scratch (log 23); otherwise every cell adapts, in FILL each EMPTY cell required by the
active Z_seal (log 15) without measurements takes the mean of the nearest cell first filled, the higher one of two as
near, and the summary counts first filled, in band, struck, re-anchored and gap filled. -/
def Obligations.CellAdaptation : Prop :=
  (∀ (c : Cell) (p : ScratchPair) (sh : Nat),
     let mean := p.sum / p.count
     let d : Int := (mean : Int) - c.reference
     (p.count = 0 → c.adapt p sh = c) ∧
     (p.count ≠ 0 → c.state = .empty → c.adapt p sh = ⟨.valid, mean, 1, 0⟩) ∧
     (p.count ≠ 0 → c.state = .valid → d.natAbs ≤ c.reference / 4 →
       ((c.adapt p sh).reference : Int) = max 1 (min 65535 ((c.reference : Int) + d.tdiv (2 ^ sh))) ∧
       (c.adapt p sh).count = min 255 (c.count + 1) ∧ (c.adapt p sh).strikes = 0 ∧ (c.adapt p sh).state = .valid) ∧
     (p.count ≠ 0 → c.state = .valid → c.reference / 4 < d.natAbs → c.strikes < 2 →
       c.adapt p sh = { c with strikes := c.strikes + 1 }) ∧
     (p.count ≠ 0 → c.state = .valid → c.reference / 4 < d.natAbs → c.strikes = 2 →
       c.adapt p sh = ⟨.valid, mean, 1, 0⟩)) ∧
  (∀ (k : Chan) (unknown drift filling : Bool),
     let u := k.adapt unknown drift filling
     let cells := k.rps.cells
     let scratch := k.rps.scratch
     let barred := fun r : AdaptOutcome => u.rps = ⟨cells, Vector.replicate 64 ⟨0, 0⟩, ⟨r, 0, 0, 0, 0, 0⟩⟩
     let adapted := fun i : Fin 64 => cells[i].adapt scratch[i] (k.ms.active.get .adaptShift)
     let fresh := fun i : Fin 64 => scratch[i].count ≠ 0 ∧ cells[i].state = .empty
     let measured := fun i : Fin 64 => scratch[i].count ≠ 0 ∧ cells[i].state = .valid
     let inside := fun i : Fin 64 =>
       (((scratch[i].sum / scratch[i].count : Nat) : Int) - cells[i].reference).natAbs ≤ cells[i].reference / 4
     let l := k.ms.active.get .travelLength
     let wc := (l + 63) / 64
     let gap := fun i : Fin 64 => filling = true ∧ k.ms.active.get .zSeal / wc ≤ i.val ∧ i.val ≤ min 63 (l / wc) ∧
       scratch[i].count = 0 ∧ cells[i].state = .empty
     let apart := fun i j : Fin 64 => ((i.val : Int) - j.val).natAbs
     let nearest := fun i j : Fin 64 => fresh j ∧
       ∀ h, fresh h → apart i j < apart i h ∨ (apart i j = apart i h ∧ h ≤ j)
     u.pd = k.pd ∧ u.out = k.out ∧ u.ee = k.ee ∧ u.ms = k.ms ∧
     (unknown = true → barred .barredPosition) ∧ (unknown = false → drift = true → barred .barredDrift) ∧
     (unknown = false → drift = false → k.ms.taint = true → filling = false → barred .barredTaint) ∧
     (unknown = false → drift = false → k.ms.taint = false ∨ filling = true →
       u.rps.scratch = Vector.replicate 64 ⟨0, 0⟩ ∧
       (∀ i, ¬gap i ∨ (∀ j, ¬fresh j) → u.rps.cells[i] = adapted i) ∧
       (∀ i j, gap i → nearest i j → u.rps.cells[i] = ⟨.valid, scratch[j].sum / scratch[j].count, 1, 0⟩) ∧
       u.rps.summary = ⟨.adapted, (List.finRange 64).countP (fun i => decide (fresh i)),
         (List.finRange 64).countP (fun i => decide (measured i ∧ inside i)),
         (List.finRange 64).countP (fun i => decide (measured i ∧ ¬inside i ∧ cells[i].strikes < 2)),
         (List.finRange 64).countP (fun i => decide (measured i ∧ ¬inside i ∧ 2 ≤ cells[i].strikes)),
         (List.finRange 64).countP (fun i => decide (gap i ∧ ∃ j, fresh j))⟩))

/-! ## Drive outputs -/

/-- A ramp step: at step i of T the ramp value is s + floor((t - s) × i / T), s the lesser of Start duty and target; at
step T the ramp becomes idle, its time to the next step then 0 (log 33). With the ramp idle the command has no effect (log
5). A PWM period boundary of a driven channel: the applied duty becomes the ramp value, held in HIGH to floor(16384000 /
U), and a new period begins. With the PWM stopped the command has no effect (log 5).
The two sides of the H-bridge by the output mode: floating in OFF, low in BRAKE, and in a DRIVE mode the driven side is
high in the first part of the PWM period that the applied duty gives, the sides exchanged with Drive polarity swapped. -/
def Obligations.RampAndPwmSteps : Prop :=
  (∀ (s : State) (c : ChanId),
     let k := s.ch c
     let t := k.out.target
     let st := min (k.ms.active.get .startDuty) t
     let n := k.ms.active.get .rampTime
     (∀ i, k.out.step = some i → exec (.rampStep c) s = .next (State.serve (s.setCh c { k with out := { k.out with
       ramp := st + (t - st) * i / n
       step := if i < n then some (i + 1) else none
       stepIn := if i < n then 1000 else 0 } }))) ∧
     (k.out.step = none → exec (.rampStep c) s = .next s.serve)) ∧
  (∀ (s : State) (c : ChanId),
     let k := s.ch c
     (k.out.pwm.isSome = true → exec (.pwmPeriodBoundary c) s = .next (State.serve (s.setCh c { k with out := { k.out with
       applied := if s.supply.state = .high then min k.out.ramp (16384000 / s.supply.u) else k.out.ramp
       pwm := some 0 } }))) ∧
     (k.out.pwm = none → exec (.pwmPeriodBoundary c) s = .next s.serve)) ∧
  (∀ k : Chan,
     let high := ∃ t, k.out.pwm = some t ∧ t * 1024 < k.out.applied * 50
     let pulsed := fun side : SideLevel => (high → side = .high) ∧ (¬high → side = .low)
     let swapped := k.ms.active.get .drivePolarity = 1
     let closing := if swapped then k.bridgeSides.2 else k.bridgeSides.1
     let opening := if swapped then k.bridgeSides.1 else k.bridgeSides.2
     (k.out.mode = .off → closing = .floating ∧ opening = .floating) ∧
     (k.out.mode = .brake → closing = .low ∧ opening = .low) ∧
     (k.out.mode = .driveClose → pulsed closing ∧ opening = .low) ∧
     (k.out.mode = .driveOpen → closing = .low ∧ pulsed opening))

/-! ## Supply and fault lines -/

/-- A supply sample: the history, U and the classification with its hysteresis; a sample that keeps the state changes
nothing else. The entry into CUTOFF: every driven or braked channel has its outputs OFF at once and enters IDLE, or FAULT
where its DWELL led there; DISABLED, IDLE, FAULT and QUEUED channels stay. No record is taken. A change of the supply
state posts the notice SUPPLY_STATE with the new state and U, and a sample that keeps the state posts none; the entry into
CUTOFF posts MOTION_END for every channel it takes from its motion: SUPPLY_CUTOFF, or the result or FAULT_STOP that its
DWELL led to (while another frame or reply is before them). The change into NORMAL makes a grant pass: the oldest entries
of the queue, as many as slots are free, enter STARTUP and begin their drives: target duty, ramp and first PWM period (log
21, log 33). -/
def Obligations.SupplySampleClassifiesAndCutsOff : Prop :=
  (∀ (s : State) (mv : Nat), s.supply.hist ≠ [] →
     let hist := pushLast 4 s.supply.hist (min mv 30000)
     let u := if hist.length = 4 then hist.sum / 4 else hist.headD 0
     let st := s.supply.state
     ∃ t, exec (.supplySample mv) s = .next t ∧ t.supply.hist = hist ∧ t.supply.u = u ∧
       (t.supply.state = .cutoff ↔ u < (if st = .cutoff then 6300 else 6000)) ∧
       (t.supply.state = .low ↔ (if st = .cutoff then 6300 else 6000) ≤ u ∧
         u < (if st = .cutoff ∨ st = .low then 9300 else 9000)) ∧
       (t.supply.state = .normal ↔ (if st = .cutoff ∨ st = .low then 9300 else 9000) ≤ u ∧
         u ≤ (if st = .high then 15700 else 16000)) ∧
       (t.supply.state = .high ↔ (if st = .high then 15700 else 16000) < u) ∧
       t.device = s.device ∧ t.lines = s.lines ∧ t.effort = s.effort ∧ t.clock = s.clock ∧
       (t.supply.state = st → t.chans = s.chans ∧ t.arbiter = s.arbiter ∧ t.pool = s.pool ∧ s.SameLink t)) ∧
  (∀ (s : State) (mv : Nat), s.supply.hist ≠ [] → s.supply.state ≠ .cutoff →
     (s.supply.sample mv).state = .cutoff →
     ∃ t, exec (.supplySample mv) s = .next t ∧ t.supply.state = .cutoff ∧ t.pool = s.pool ∧
       t.arbiter.queue = s.arbiter.queue.filter (fun e => !(s.ch e.chan).ms.state.holding) ∧
       ∀ c : ChanId,
         ((s.ch c).ms.state.holding = false → t.ch c = s.ch c) ∧
         ((s.ch c).ms.state.holding = true → (t.ch c).out.mode = .off ∧ (t.ch c).out.applied = 0 ∧
           c ∉ t.arbiter.holders ∧ (t.ch c).pd.position = (s.ch c).pd.position ∧ (t.ch c).pd.known = (s.ch c).pd.known ∧
           (t.ch c).ms.reversal = (s.ch c).ms.reversal ∧ (t.ch c).rps.cells = (s.ch c).rps.cells ∧
           (∀ x, (s.ch c).successor = some (.fault x) →
             (t.ch c).ms.state = .fault ∧ (t.ch c).ms.cause = .condition x) ∧
           ((∀ x, (s.ch c).successor ≠ some (.fault x)) → (t.ch c).ms.state = .idle ∧ (t.ch c).ee.lane = none))) ∧
  (∀ (s : State) (mv : Nat), s.supply.hist ≠ [] → s.noticesWait → ∃ t, exec (.supplySample mv) s = .next t ∧
     (t.supply.state = s.supply.state → t.link.notices = s.link.notices) ∧
     (t.supply.state ≠ s.supply.state → t.link.notices.supply = some (t.supply.state, t.supply.u) ∧
       t.link.notices.faultLine = s.link.notices.faultLine ∧ t.link.notices.incident = s.link.notices.incident ∧
       ∀ c : ChanId,
         let k := s.ch c
         let ended := fun r : MotionResult => t.link.notices.motionEnd[c] = some ⟨r, k.pd.position, k.pd.known⟩
         (t.supply.state ≠ .cutoff ∨ k.ms.state.holding = false →
           t.link.notices.motionEnd[c] = s.link.notices.motionEnd[c]) ∧
         (t.supply.state = .cutoff →
           (k.ms.state.driving = true ∨ k.successor = some .startup ∨ k.successor = some .backoff → ended .supplyCutoff) ∧
           (∀ r, k.successor = some (.idle r) → ended r) ∧ (∀ x, k.successor = some (.fault x) → ended .faultStop)))) ∧
  (∀ (s : State) (mv : Nat), s.supply.hist ≠ [] → s.SlotLaw → s.ArbiterLaw → ∃ t, exec (.supplySample mv) s = .next t ∧
     (s.supply.state ≠ .normal → t.supply.state = .normal →
       let n := min (s.device.slotCount - s.arbiter.holders.length) s.arbiter.queue.length
       let granted := (s.arbiter.queue.take n).map QueueEntry.chan
       t.arbiter.queue = s.arbiter.queue.drop n ∧
       (∀ c : ChanId, c ∈ t.arbiter.holders ↔ c ∈ s.arbiter.holders ∨ c ∈ granted) ∧
       (∀ c ∈ granted, (t.ch c).ms.state = .startup ∧ (t.ch c).ms.motion = (s.ch c).ms.motion ∧
         (t.ch c).ms.active = (s.ch c).ms.pending ∧
         ∃ m, (s.ch c).ms.motion = some m ∧ (t.ch c).out.BeginsDrive (s.ch c).ms.pending m t.supply) ∧
       (∀ c, c ∉ granted → t.ch c = s.ch c) ∧ t.pool = s.pool))

/-- The assertion of a fault line: the line ASSERTED with its latch set; every mapped channel that is enabled and not in
FAULT enters FAULT with its outputs OFF and the cause BRIDGE with this line; DISABLED and FAULT channels stay, and so does
every channel outside the map that was not waiting for a slot. The release of a fault line: INACTIVE, the channels it
faulted stay in FAULT, and the latch is cleared only when no channel in its map is in FAULT. At an assertion one BRIDGE
record is taken for every channel that enters FAULT, of its state before the assertion (log 34), in an order the manual
leaves open (log 7), while records are free, and the others are lost; while another frame or reply is before them the
notices FAULT_LINE with ASSERTED, MOTION_END FAULT_STOP of each of them that had a motion, and INCIDENT of each record
taken are waiting. -/
def Obligations.FaultLineAssertionAndRelease : Prop :=
  (∀ (s : State) (l : LineId), s.lines[l].asserted = false → ∃ t, exec (.faultLineAssertion l) s = .next t ∧
     t.lines[l].asserted = true ∧ t.lines[l].latch = true ∧ (∀ j : LineId, j ≠ l → t.lines[j] = s.lines[j]) ∧
     t.device = s.device ∧ t.supply = s.supply ∧ t.effort = s.effort ∧ t.clock = s.clock ∧
     ∀ c : ChanId,
       (inSet s.device.maps[l] c = true → (s.ch c).ms.state ≠ .disabled → (s.ch c).ms.state ≠ .fault →
         (t.ch c).ms.state = .fault ∧ (t.ch c).ms.cause = .bridge l ∧ (t.ch c).out.mode = .off ∧
         (t.ch c).out.applied = 0 ∧ (t.ch c).ms.motion = none ∧ c ∉ t.arbiter.holders ∧
         (t.ch c).pd.position = (s.ch c).pd.position ∧ (t.ch c).pd.known = (s.ch c).pd.known ∧
         (t.ch c).ms.reversal = (s.ch c).ms.reversal) ∧
       (inSet s.device.maps[l] c = false ∨ (s.ch c).ms.state = .disabled ∨ (s.ch c).ms.state = .fault →
         c ∉ s.arbiter.queue.map QueueEntry.chan → t.ch c = s.ch c)) ∧
  (∀ (s : State) (l : LineId), s.lines[l].asserted = true → ∃ t, exec (.faultLineRelease l) s = .next t ∧
     t.lines[l].asserted = false ∧
     (t.lines[l].latch = true ↔ s.lines[l].latch = true ∧
       ∃ c : ChanId, inSet s.device.maps[l] c = true ∧ (s.ch c).ms.state = .fault) ∧
     (∀ j : LineId, j ≠ l → t.lines[j] = s.lines[j]) ∧ t.chans = s.chans ∧ t.arbiter = s.arbiter ∧ t.pool = s.pool ∧
     t.device = s.device ∧ t.supply = s.supply ∧ t.effort = s.effort ∧ t.clock = s.clock ∧ s.SameLink t ∧
     (s.link.sending.isSome = true ∨ s.link.replies ≠ [] → t.link.notices.faultLine = some (l, false))) ∧
  (∀ (s : State) (l : LineId), s.lines[l].asserted = false → s.pool.Partitioned →
     let acted := s.faultable s.device.maps[l]
     ∃ t, exec (.faultLineAssertion l) s = .next t ∧ s.BridgeRecordsTaken t l acted ∧
       (s.noticesWait → s.BridgeNoticesPosted t acted ∧ t.link.notices.faultLine = some (l, true) ∧
         t.link.notices.supply = s.link.notices.supply))
end

