-- ==== Sys2Proof/Laws/State.lean ====
section
/-! SUPPORT. What each shared update of the state leaves alone and what it writes: one lemma per field per update, for simp. -/

namespace Sys2Proof.Machine

/-! ## Channels -/

/-- A channel is read from the channels alone, whatever stands in the other fields. -/
@[simp] theorem State.ch_mk (s : State) (d ls n su e a p l k r q) (c : ChanId) :
    State.ch ⟨s.chans, d, ls, n, su, e, a, p, l, k, r, q⟩ c = s.ch c := rfl

@[simp] theorem State.ch_setCh_self (s : State) (c : ChanId) (k : Chan) : (s.setCh c k).ch c = k := by
  simp [State.ch, State.setCh]

@[simp] theorem State.ch_setCh_ne (s : State) {c d : ChanId} (k : Chan) (h : d ≠ c) : (s.setCh c k).ch d = s.ch d := by
  have h' : ¬c.val = d.val := fun e => h (Fin.ext e.symm)
  simp [State.ch, State.setCh, h']

theorem State.ch_setCh (s : State) (c d : ChanId) (k : Chan) : (s.setCh c k).ch d = if d = c then k else s.ch d := by
  by_cases h : d = c
  · subst h; simp
  · simp [h]

@[simp] theorem State.setCh_setCh (s : State) (c : ChanId) (k j : Chan) : (s.setCh c k).setCh c j = s.setCh c j := by
  simp [State.setCh]

@[simp] theorem State.setCh_ch (s : State) (c : ChanId) : s.setCh c (s.ch c) = s := by
  simp [State.setCh, State.ch]

@[simp] theorem State.modCh_eq (s : State) (c : ChanId) (f : Chan → Chan) : s.modCh c f = s.setCh c (f (s.ch c)) := rfl

@[simp] theorem State.ch_mapCh (s : State) (f : Chan → Chan) (c : ChanId) : (s.mapCh f).ch c = f (s.ch c) := by
  simp [State.ch, State.mapCh]

/-- Two states that agree in every channel have the same channels. -/
theorem State.chans_ext {s t : State} (h : ∀ c, s.ch c = t.ch c) : s.chans = t.chans := by
  ext i hi; exact h ⟨i, hi⟩

@[simp] theorem State.setCh_device (s : State) (c : ChanId) (k : Chan) : (s.setCh c k).device = s.device := rfl
@[simp] theorem State.setCh_lines (s : State) (c : ChanId) (k : Chan) : (s.setCh c k).lines = s.lines := rfl
@[simp] theorem State.setCh_lineSampleIn (s : State) (c : ChanId) (k : Chan) : (s.setCh c k).lineSampleIn = s.lineSampleIn := rfl
@[simp] theorem State.setCh_supply (s : State) (c : ChanId) (k : Chan) : (s.setCh c k).supply = s.supply := rfl
@[simp] theorem State.setCh_effort (s : State) (c : ChanId) (k : Chan) : (s.setCh c k).effort = s.effort := rfl
@[simp] theorem State.setCh_arbiter (s : State) (c : ChanId) (k : Chan) : (s.setCh c k).arbiter = s.arbiter := rfl
@[simp] theorem State.setCh_pool (s : State) (c : ChanId) (k : Chan) : (s.setCh c k).pool = s.pool := rfl
@[simp] theorem State.setCh_link (s : State) (c : ChanId) (k : Chan) : (s.setCh c k).link = s.link := rfl
@[simp] theorem State.setCh_clock (s : State) (c : ChanId) (k : Chan) : (s.setCh c k).clock = s.clock := rfl
@[simp] theorem State.setCh_races (s : State) (c : ChanId) (k : Chan) : (s.setCh c k).races = s.races := rfl
@[simp] theorem State.setCh_pending (s : State) (c : ChanId) (k : Chan) : (s.setCh c k).pending = s.pending := rfl

@[simp] theorem State.mapCh_device (s : State) (f : Chan → Chan) : (s.mapCh f).device = s.device := rfl
@[simp] theorem State.mapCh_lines (s : State) (f : Chan → Chan) : (s.mapCh f).lines = s.lines := rfl
@[simp] theorem State.mapCh_lineSampleIn (s : State) (f : Chan → Chan) : (s.mapCh f).lineSampleIn = s.lineSampleIn := rfl
@[simp] theorem State.mapCh_supply (s : State) (f : Chan → Chan) : (s.mapCh f).supply = s.supply := rfl
@[simp] theorem State.mapCh_effort (s : State) (f : Chan → Chan) : (s.mapCh f).effort = s.effort := rfl
@[simp] theorem State.mapCh_arbiter (s : State) (f : Chan → Chan) : (s.mapCh f).arbiter = s.arbiter := rfl
@[simp] theorem State.mapCh_pool (s : State) (f : Chan → Chan) : (s.mapCh f).pool = s.pool := rfl
@[simp] theorem State.mapCh_link (s : State) (f : Chan → Chan) : (s.mapCh f).link = s.link := rfl
@[simp] theorem State.mapCh_clock (s : State) (f : Chan → Chan) : (s.mapCh f).clock = s.clock := rfl
@[simp] theorem State.mapCh_races (s : State) (f : Chan → Chan) : (s.mapCh f).races = s.races := rfl
@[simp] theorem State.mapCh_pending (s : State) (f : Chan → Chan) : (s.mapCh f).pending = s.pending := rfl

/-! ## Open orders and notices -/

@[simp] theorem State.ch_countRace (s : State) (c : ChanId) : s.countRace.ch c = s.ch c := rfl
@[simp] theorem State.countRace_chans (s : State) : s.countRace.chans = s.chans := rfl
@[simp] theorem State.countRace_device (s : State) : s.countRace.device = s.device := rfl
@[simp] theorem State.countRace_lines (s : State) : s.countRace.lines = s.lines := rfl
@[simp] theorem State.countRace_lineSampleIn (s : State) : s.countRace.lineSampleIn = s.lineSampleIn := rfl
@[simp] theorem State.countRace_supply (s : State) : s.countRace.supply = s.supply := rfl
@[simp] theorem State.countRace_effort (s : State) : s.countRace.effort = s.effort := rfl
@[simp] theorem State.countRace_arbiter (s : State) : s.countRace.arbiter = s.arbiter := rfl
@[simp] theorem State.countRace_pool (s : State) : s.countRace.pool = s.pool := rfl
@[simp] theorem State.countRace_link (s : State) : s.countRace.link = s.link := rfl
@[simp] theorem State.countRace_clock (s : State) : s.countRace.clock = s.clock := rfl
@[simp] theorem State.countRace_pending (s : State) : s.countRace.pending = s.pending := rfl

@[simp] theorem State.ch_postMotionEnd (s : State) (c : ChanId) (r : MotionResult) (d : ChanId) : (s.postMotionEnd c r).ch d = s.ch d := rfl
@[simp] theorem State.postMotionEnd_chans (s : State) (c : ChanId) (r : MotionResult) : (s.postMotionEnd c r).chans = s.chans := rfl
@[simp] theorem State.postMotionEnd_device (s : State) (c : ChanId) (r : MotionResult) : (s.postMotionEnd c r).device = s.device := rfl
@[simp] theorem State.postMotionEnd_lines (s : State) (c : ChanId) (r : MotionResult) : (s.postMotionEnd c r).lines = s.lines := rfl
@[simp] theorem State.postMotionEnd_lineSampleIn (s : State) (c : ChanId) (r : MotionResult) : (s.postMotionEnd c r).lineSampleIn = s.lineSampleIn := rfl
@[simp] theorem State.postMotionEnd_supply (s : State) (c : ChanId) (r : MotionResult) : (s.postMotionEnd c r).supply = s.supply := rfl
@[simp] theorem State.postMotionEnd_effort (s : State) (c : ChanId) (r : MotionResult) : (s.postMotionEnd c r).effort = s.effort := rfl
@[simp] theorem State.postMotionEnd_arbiter (s : State) (c : ChanId) (r : MotionResult) : (s.postMotionEnd c r).arbiter = s.arbiter := rfl
@[simp] theorem State.postMotionEnd_pool (s : State) (c : ChanId) (r : MotionResult) : (s.postMotionEnd c r).pool = s.pool := rfl
@[simp] theorem State.postMotionEnd_clock (s : State) (c : ChanId) (r : MotionResult) : (s.postMotionEnd c r).clock = s.clock := rfl
@[simp] theorem State.postMotionEnd_races (s : State) (c : ChanId) (r : MotionResult) : (s.postMotionEnd c r).races = s.races := rfl
@[simp] theorem State.postMotionEnd_pending (s : State) (c : ChanId) (r : MotionResult) : (s.postMotionEnd c r).pending = s.pending := rfl
@[simp] theorem State.postMotionEnd_link_phase (s : State) (c : ChanId) (r : MotionResult) : (s.postMotionEnd c r).link.phase = s.link.phase := rfl
@[simp] theorem State.postMotionEnd_link_buffer (s : State) (c : ChanId) (r : MotionResult) : (s.postMotionEnd c r).link.buffer = s.link.buffer := rfl
@[simp] theorem State.postMotionEnd_link_gap (s : State) (c : ChanId) (r : MotionResult) : (s.postMotionEnd c r).link.gap = s.link.gap := rfl
@[simp] theorem State.postMotionEnd_link_replies (s : State) (c : ChanId) (r : MotionResult) : (s.postMotionEnd c r).link.replies = s.link.replies := rfl
@[simp] theorem State.postMotionEnd_link_lastServed (s : State) (c : ChanId) (r : MotionResult) : (s.postMotionEnd c r).link.lastServed = s.link.lastServed := rfl
@[simp] theorem State.postMotionEnd_link_sending (s : State) (c : ChanId) (r : MotionResult) : (s.postMotionEnd c r).link.sending = s.link.sending := rfl
@[simp] theorem State.postMotionEnd_link_lengthErrors (s : State) (c : ChanId) (r : MotionResult) : (s.postMotionEnd c r).link.lengthErrors = s.link.lengthErrors := rfl
@[simp] theorem State.postMotionEnd_link_crcErrors (s : State) (c : ChanId) (r : MotionResult) : (s.postMotionEnd c r).link.crcErrors = s.link.crcErrors := rfl
@[simp] theorem State.postMotionEnd_link_timeouts (s : State) (c : ChanId) (r : MotionResult) : (s.postMotionEnd c r).link.timeouts = s.link.timeouts := rfl
@[simp] theorem State.postMotionEnd_link_overruns (s : State) (c : ChanId) (r : MotionResult) : (s.postMotionEnd c r).link.overruns = s.link.overruns := rfl
@[simp] theorem State.postMotionEnd_link_locked (s : State) (c : ChanId) (r : MotionResult) : (s.postMotionEnd c r).link.locked = s.link.locked := rfl

@[simp] theorem State.ch_postIncident (s : State) (c : ChanId) (r : RecId) (d : ChanId) : (s.postIncident c r).ch d = s.ch d := rfl
@[simp] theorem State.postIncident_chans (s : State) (c : ChanId) (r : RecId) : (s.postIncident c r).chans = s.chans := rfl
@[simp] theorem State.postIncident_device (s : State) (c : ChanId) (r : RecId) : (s.postIncident c r).device = s.device := rfl
@[simp] theorem State.postIncident_lines (s : State) (c : ChanId) (r : RecId) : (s.postIncident c r).lines = s.lines := rfl
@[simp] theorem State.postIncident_lineSampleIn (s : State) (c : ChanId) (r : RecId) : (s.postIncident c r).lineSampleIn = s.lineSampleIn := rfl
@[simp] theorem State.postIncident_supply (s : State) (c : ChanId) (r : RecId) : (s.postIncident c r).supply = s.supply := rfl
@[simp] theorem State.postIncident_effort (s : State) (c : ChanId) (r : RecId) : (s.postIncident c r).effort = s.effort := rfl
@[simp] theorem State.postIncident_arbiter (s : State) (c : ChanId) (r : RecId) : (s.postIncident c r).arbiter = s.arbiter := rfl
@[simp] theorem State.postIncident_pool (s : State) (c : ChanId) (r : RecId) : (s.postIncident c r).pool = s.pool := rfl
@[simp] theorem State.postIncident_clock (s : State) (c : ChanId) (r : RecId) : (s.postIncident c r).clock = s.clock := rfl
@[simp] theorem State.postIncident_races (s : State) (c : ChanId) (r : RecId) : (s.postIncident c r).races = s.races := rfl
@[simp] theorem State.postIncident_pending (s : State) (c : ChanId) (r : RecId) : (s.postIncident c r).pending = s.pending := rfl
@[simp] theorem State.postIncident_link_phase (s : State) (c : ChanId) (r : RecId) : (s.postIncident c r).link.phase = s.link.phase := rfl
@[simp] theorem State.postIncident_link_buffer (s : State) (c : ChanId) (r : RecId) : (s.postIncident c r).link.buffer = s.link.buffer := rfl
@[simp] theorem State.postIncident_link_gap (s : State) (c : ChanId) (r : RecId) : (s.postIncident c r).link.gap = s.link.gap := rfl
@[simp] theorem State.postIncident_link_replies (s : State) (c : ChanId) (r : RecId) : (s.postIncident c r).link.replies = s.link.replies := rfl
@[simp] theorem State.postIncident_link_lastServed (s : State) (c : ChanId) (r : RecId) : (s.postIncident c r).link.lastServed = s.link.lastServed := rfl
@[simp] theorem State.postIncident_link_sending (s : State) (c : ChanId) (r : RecId) : (s.postIncident c r).link.sending = s.link.sending := rfl
@[simp] theorem State.postIncident_link_lengthErrors (s : State) (c : ChanId) (r : RecId) : (s.postIncident c r).link.lengthErrors = s.link.lengthErrors := rfl
@[simp] theorem State.postIncident_link_crcErrors (s : State) (c : ChanId) (r : RecId) : (s.postIncident c r).link.crcErrors = s.link.crcErrors := rfl
@[simp] theorem State.postIncident_link_timeouts (s : State) (c : ChanId) (r : RecId) : (s.postIncident c r).link.timeouts = s.link.timeouts := rfl
@[simp] theorem State.postIncident_link_overruns (s : State) (c : ChanId) (r : RecId) : (s.postIncident c r).link.overruns = s.link.overruns := rfl
@[simp] theorem State.postIncident_link_locked (s : State) (c : ChanId) (r : RecId) : (s.postIncident c r).link.locked = s.link.locked := rfl

@[simp] theorem State.ch_postFaultLine (s : State) (l : LineId) (b : Bool) (d : ChanId) : (s.postFaultLine l b).ch d = s.ch d := rfl
@[simp] theorem State.postFaultLine_chans (s : State) (l : LineId) (b : Bool) : (s.postFaultLine l b).chans = s.chans := rfl
@[simp] theorem State.postFaultLine_device (s : State) (l : LineId) (b : Bool) : (s.postFaultLine l b).device = s.device := rfl
@[simp] theorem State.postFaultLine_lines (s : State) (l : LineId) (b : Bool) : (s.postFaultLine l b).lines = s.lines := rfl
@[simp] theorem State.postFaultLine_lineSampleIn (s : State) (l : LineId) (b : Bool) : (s.postFaultLine l b).lineSampleIn = s.lineSampleIn := rfl
@[simp] theorem State.postFaultLine_supply (s : State) (l : LineId) (b : Bool) : (s.postFaultLine l b).supply = s.supply := rfl
@[simp] theorem State.postFaultLine_effort (s : State) (l : LineId) (b : Bool) : (s.postFaultLine l b).effort = s.effort := rfl
@[simp] theorem State.postFaultLine_arbiter (s : State) (l : LineId) (b : Bool) : (s.postFaultLine l b).arbiter = s.arbiter := rfl
@[simp] theorem State.postFaultLine_pool (s : State) (l : LineId) (b : Bool) : (s.postFaultLine l b).pool = s.pool := rfl
@[simp] theorem State.postFaultLine_clock (s : State) (l : LineId) (b : Bool) : (s.postFaultLine l b).clock = s.clock := rfl
@[simp] theorem State.postFaultLine_races (s : State) (l : LineId) (b : Bool) : (s.postFaultLine l b).races = s.races := rfl
@[simp] theorem State.postFaultLine_pending (s : State) (l : LineId) (b : Bool) : (s.postFaultLine l b).pending = s.pending := rfl
@[simp] theorem State.postFaultLine_link_phase (s : State) (l : LineId) (b : Bool) : (s.postFaultLine l b).link.phase = s.link.phase := rfl
@[simp] theorem State.postFaultLine_link_buffer (s : State) (l : LineId) (b : Bool) : (s.postFaultLine l b).link.buffer = s.link.buffer := rfl
@[simp] theorem State.postFaultLine_link_gap (s : State) (l : LineId) (b : Bool) : (s.postFaultLine l b).link.gap = s.link.gap := rfl
@[simp] theorem State.postFaultLine_link_replies (s : State) (l : LineId) (b : Bool) : (s.postFaultLine l b).link.replies = s.link.replies := rfl
@[simp] theorem State.postFaultLine_link_lastServed (s : State) (l : LineId) (b : Bool) : (s.postFaultLine l b).link.lastServed = s.link.lastServed := rfl
@[simp] theorem State.postFaultLine_link_sending (s : State) (l : LineId) (b : Bool) : (s.postFaultLine l b).link.sending = s.link.sending := rfl
@[simp] theorem State.postFaultLine_link_lengthErrors (s : State) (l : LineId) (b : Bool) : (s.postFaultLine l b).link.lengthErrors = s.link.lengthErrors := rfl
@[simp] theorem State.postFaultLine_link_crcErrors (s : State) (l : LineId) (b : Bool) : (s.postFaultLine l b).link.crcErrors = s.link.crcErrors := rfl
@[simp] theorem State.postFaultLine_link_timeouts (s : State) (l : LineId) (b : Bool) : (s.postFaultLine l b).link.timeouts = s.link.timeouts := rfl
@[simp] theorem State.postFaultLine_link_overruns (s : State) (l : LineId) (b : Bool) : (s.postFaultLine l b).link.overruns = s.link.overruns := rfl
@[simp] theorem State.postFaultLine_link_locked (s : State) (l : LineId) (b : Bool) : (s.postFaultLine l b).link.locked = s.link.locked := rfl

@[simp] theorem State.ch_postSupply (s : State) (d : ChanId) : s.postSupply.ch d = s.ch d := rfl
@[simp] theorem State.postSupply_chans (s : State) : s.postSupply.chans = s.chans := rfl
@[simp] theorem State.postSupply_device (s : State) : s.postSupply.device = s.device := rfl
@[simp] theorem State.postSupply_lines (s : State) : s.postSupply.lines = s.lines := rfl
@[simp] theorem State.postSupply_lineSampleIn (s : State) : s.postSupply.lineSampleIn = s.lineSampleIn := rfl
@[simp] theorem State.postSupply_supply (s : State) : s.postSupply.supply = s.supply := rfl
@[simp] theorem State.postSupply_effort (s : State) : s.postSupply.effort = s.effort := rfl
@[simp] theorem State.postSupply_arbiter (s : State) : s.postSupply.arbiter = s.arbiter := rfl
@[simp] theorem State.postSupply_pool (s : State) : s.postSupply.pool = s.pool := rfl
@[simp] theorem State.postSupply_clock (s : State) : s.postSupply.clock = s.clock := rfl
@[simp] theorem State.postSupply_races (s : State) : s.postSupply.races = s.races := rfl
@[simp] theorem State.postSupply_pending (s : State) : s.postSupply.pending = s.pending := rfl
@[simp] theorem State.postSupply_link_phase (s : State) : s.postSupply.link.phase = s.link.phase := rfl
@[simp] theorem State.postSupply_link_buffer (s : State) : s.postSupply.link.buffer = s.link.buffer := rfl
@[simp] theorem State.postSupply_link_gap (s : State) : s.postSupply.link.gap = s.link.gap := rfl
@[simp] theorem State.postSupply_link_replies (s : State) : s.postSupply.link.replies = s.link.replies := rfl
@[simp] theorem State.postSupply_link_lastServed (s : State) : s.postSupply.link.lastServed = s.link.lastServed := rfl
@[simp] theorem State.postSupply_link_sending (s : State) : s.postSupply.link.sending = s.link.sending := rfl
@[simp] theorem State.postSupply_link_lengthErrors (s : State) : s.postSupply.link.lengthErrors = s.link.lengthErrors := rfl
@[simp] theorem State.postSupply_link_crcErrors (s : State) : s.postSupply.link.crcErrors = s.link.crcErrors := rfl
@[simp] theorem State.postSupply_link_timeouts (s : State) : s.postSupply.link.timeouts = s.link.timeouts := rfl
@[simp] theorem State.postSupply_link_overruns (s : State) : s.postSupply.link.overruns = s.link.overruns := rfl
@[simp] theorem State.postSupply_link_locked (s : State) : s.postSupply.link.locked = s.link.locked := rfl

/-! ## The transmitter -/

@[simp] theorem State.ch_serve (s : State) (c : ChanId) : s.serve.ch c = s.ch c := rfl
@[simp] theorem State.serve_chans (s : State) : s.serve.chans = s.chans := rfl
@[simp] theorem State.serve_device (s : State) : s.serve.device = s.device := rfl
@[simp] theorem State.serve_lines (s : State) : s.serve.lines = s.lines := rfl
@[simp] theorem State.serve_lineSampleIn (s : State) : s.serve.lineSampleIn = s.lineSampleIn := rfl
@[simp] theorem State.serve_supply (s : State) : s.serve.supply = s.supply := rfl
@[simp] theorem State.serve_effort (s : State) : s.serve.effort = s.effort := rfl
@[simp] theorem State.serve_arbiter (s : State) : s.serve.arbiter = s.arbiter := rfl
@[simp] theorem State.serve_pool (s : State) : s.serve.pool = s.pool := rfl
@[simp] theorem State.serve_clock (s : State) : s.serve.clock = s.clock := rfl
@[simp] theorem State.serve_races (s : State) : s.serve.races = s.races := rfl
@[simp] theorem State.serve_pending (s : State) : s.serve.pending = s.pending := rfl
@[simp] theorem State.serve_link (s : State) : s.serve.link = s.link.serve := rfl

@[simp] theorem Link.serve_phase (l : Link) : l.serve.phase = l.phase := by
  unfold Link.serve; split <;> try rfl
  split <;> rfl
@[simp] theorem Link.serve_buffer (l : Link) : l.serve.buffer = l.buffer := by
  unfold Link.serve; split <;> try rfl
  split <;> rfl
@[simp] theorem Link.serve_gap (l : Link) : l.serve.gap = l.gap := by
  unfold Link.serve; split <;> try rfl
  split <;> rfl
@[simp] theorem Link.serve_replies (l : Link) : l.serve.replies = l.replies := by
  unfold Link.serve; split <;> try rfl
  split <;> rfl
@[simp] theorem Link.serve_lengthErrors (l : Link) : l.serve.lengthErrors = l.lengthErrors := by
  unfold Link.serve; split <;> try rfl
  split <;> rfl
@[simp] theorem Link.serve_crcErrors (l : Link) : l.serve.crcErrors = l.crcErrors := by
  unfold Link.serve; split <;> try rfl
  split <;> rfl
@[simp] theorem Link.serve_timeouts (l : Link) : l.serve.timeouts = l.timeouts := by
  unfold Link.serve; split <;> try rfl
  split <;> rfl
@[simp] theorem Link.serve_overruns (l : Link) : l.serve.overruns = l.overruns := by
  unfold Link.serve; split <;> try rfl
  split <;> rfl
@[simp] theorem Link.serve_locked (l : Link) : l.serve.locked = l.locked := by
  unfold Link.serve; split <;> try rfl
  split <;> rfl

/-! ## Outcomes -/

@[simp] theorem done_eq_next (s t : State) : done s = .next t ↔ s.serve = t := by simp [done]

/-! ## The drive outputs -/

@[simp] theorem DriveOut.leave_mode (o : DriveOut) (m : OutputMode) : (o.leave m).mode = m := rfl
@[simp] theorem DriveOut.leave_target (o : DriveOut) (m : OutputMode) : (o.leave m).target = o.target := rfl
@[simp] theorem DriveOut.leave_ramp (o : DriveOut) (m : OutputMode) : (o.leave m).ramp = o.ramp := rfl
@[simp] theorem DriveOut.leave_step (o : DriveOut) (m : OutputMode) : (o.leave m).step = none := rfl
@[simp] theorem DriveOut.leave_stepIn (o : DriveOut) (m : OutputMode) : (o.leave m).stepIn = 0 := rfl
@[simp] theorem DriveOut.leave_applied (o : DriveOut) (m : OutputMode) : (o.leave m).applied = 0 := rfl
@[simp] theorem DriveOut.leave_pwm (o : DriveOut) (m : OutputMode) : (o.leave m).pwm = none := rfl

end Sys2Proof.Machine
end

