-- ==== Sys2Proof/Laws/Ops.lean ====
section
/-! SUPPORT. What each shared operation can do: which fields it leaves alone, and what it does to the channels. -/

namespace Sys2Proof.Machine

/-! ## Parameter sets -/

theorem ChanParam.slot_inj {p q : ChanParam} (h : p.slot = q.slot) : p = q := by
  cases p <;> cases q <;> first | rfl | exact absurd h (by decide)

@[simp] theorem ParamSet.get_set_self (ps : ParamSet) (p : ChanParam) (v : Nat) : (ps.set p v).get p = v := by
  simp [ParamSet.get, ParamSet.set]

theorem ParamSet.get_set (ps : ParamSet) (p q : ChanParam) (v : Nat) :
    (ps.set p v).get q = if q = p then v else ps.get q := by
  by_cases h : q = p
  · subst h; simp
  · have : ¬ p.slot.val = q.slot.val := fun e => h (ChanParam.slot_inj (Fin.ext e.symm))
    simp [ParamSet.get, ParamSet.set, h, Vector.getElem_set_ne, this]

/-- Two sets with the same values are the same set. -/
theorem ParamSet.ext_get {ps qs : ParamSet} (h : ∀ p, ps.get p = qs.get p) : ps = qs := by
  obtain ⟨a⟩ := ps
  obtain ⟨b⟩ := qs
  congr 1
  ext i hi
  have key : ∀ j : Fin 41, ∃ p : ChanParam, p.slot = j := by
    have : ∀ j : Fin 41, (ChanParam.all.any fun p => p.slot == j) = true := by decide
    intro j
    obtain ⟨p, -, hp⟩ := List.any_eq_true.mp (this j)
    exact ⟨p, by simpa using hp⟩
  obtain ⟨p, hp⟩ := key ⟨i, hi⟩
  have := h p
  simp only [ParamSet.get, hp] at this
  exact this

theorem ParamSet.defaults_get (p : ChanParam) : ParamSet.defaults.get p = p.row.default := by
  cases p <;> decide

/-! ## Operands -/

theorem chanOf_eq {b : Byte} {c : ChanId} (h : b.toNat = c.val) : chanOf b = some c := by
  have : b.toNat < 8 := h ▸ c.isLt
  simp only [chanOf, this, dif_pos, Option.some.injEq]
  exact Fin.ext h

theorem chanOf_none {b : Byte} (h : 8 ≤ b.toNat) : chanOf b = none := by
  simp [chanOf, Nat.not_lt.mpr h]

theorem mem_allChans (c : ChanId) : c ∈ allChans := by revert c; decide

theorem mem_chansOf {m : ChanSet} {c : ChanId} : c ∈ chansOf m ↔ inSet m c = true := by
  simp [chansOf, mem_allChans]

theorem ChanParam.ofIdent_ident (p : ChanParam) : ChanParam.ofIdent p.row.ident = some p := by
  cases p <;> decide

theorem ParamId.ofByte_chan {b : Byte} {p : ChanParam} (h : b.toNat = p.row.ident) : ParamId.ofByte b = some (.chan p) := by
  simp [ParamId.ofByte, h, ChanParam.ofIdent_ident]

theorem ParamId.ofByte_dev {b : Byte} {p : DevParam} (h : b.toNat = p.ident) : ParamId.ofByte b = some (.dev p) := by
  have h1 : ∀ q : DevParam, ChanParam.ofIdent q.ident = none := by
    intro q; cases q <;> first | decide | (rename_i l; revert l; decide)
  have h2 : ∀ q : DevParam, DevParam.ofIdent q.ident = some q := by
    intro q; cases q <;> first | decide | (rename_i l; revert l; decide)
  simp [ParamId.ofByte, h, h1, h2]

/-! ## Incident records -/

@[simp] theorem State.ch_takeRecord (s : State) (c : ChanId) (q : IncidentCause) (p : Int) (kn : Bool) (d : ChanId) : (s.takeRecord c q p kn).ch d = s.ch d := by
  unfold State.takeRecord; split <;> rfl
@[simp] theorem State.takeRecord_device (s : State) (c : ChanId) (q : IncidentCause) (p : Int) (kn : Bool) : (s.takeRecord c q p kn).device = s.device := by
  unfold State.takeRecord; split <;> rfl
@[simp] theorem State.takeRecord_lines (s : State) (c : ChanId) (q : IncidentCause) (p : Int) (kn : Bool) : (s.takeRecord c q p kn).lines = s.lines := by
  unfold State.takeRecord; split <;> rfl
@[simp] theorem State.takeRecord_lineSampleIn (s : State) (c : ChanId) (q : IncidentCause) (p : Int) (kn : Bool) : (s.takeRecord c q p kn).lineSampleIn = s.lineSampleIn := by
  unfold State.takeRecord; split <;> rfl
@[simp] theorem State.takeRecord_supply (s : State) (c : ChanId) (q : IncidentCause) (p : Int) (kn : Bool) : (s.takeRecord c q p kn).supply = s.supply := by
  unfold State.takeRecord; split <;> rfl
@[simp] theorem State.takeRecord_effort (s : State) (c : ChanId) (q : IncidentCause) (p : Int) (kn : Bool) : (s.takeRecord c q p kn).effort = s.effort := by
  unfold State.takeRecord; split <;> rfl
@[simp] theorem State.takeRecord_arbiter (s : State) (c : ChanId) (q : IncidentCause) (p : Int) (kn : Bool) : (s.takeRecord c q p kn).arbiter = s.arbiter := by
  unfold State.takeRecord; split <;> rfl
@[simp] theorem State.takeRecord_clock (s : State) (c : ChanId) (q : IncidentCause) (p : Int) (kn : Bool) : (s.takeRecord c q p kn).clock = s.clock := by
  unfold State.takeRecord; split <;> rfl
@[simp] theorem State.takeRecord_races (s : State) (c : ChanId) (q : IncidentCause) (p : Int) (kn : Bool) : (s.takeRecord c q p kn).races = s.races := by
  unfold State.takeRecord; split <;> rfl
@[simp] theorem State.takeRecord_pending (s : State) (c : ChanId) (q : IncidentCause) (p : Int) (kn : Bool) : (s.takeRecord c q p kn).pending = s.pending := by
  unfold State.takeRecord; split <;> rfl
@[simp] theorem State.takeRecord_link_phase (s : State) (c : ChanId) (q : IncidentCause) (p : Int) (kn : Bool) : (s.takeRecord c q p kn).link.phase = s.link.phase := by
  unfold State.takeRecord; split <;> rfl
@[simp] theorem State.takeRecord_link_buffer (s : State) (c : ChanId) (q : IncidentCause) (p : Int) (kn : Bool) : (s.takeRecord c q p kn).link.buffer = s.link.buffer := by
  unfold State.takeRecord; split <;> rfl
@[simp] theorem State.takeRecord_link_gap (s : State) (c : ChanId) (q : IncidentCause) (p : Int) (kn : Bool) : (s.takeRecord c q p kn).link.gap = s.link.gap := by
  unfold State.takeRecord; split <;> rfl
@[simp] theorem State.takeRecord_link_replies (s : State) (c : ChanId) (q : IncidentCause) (p : Int) (kn : Bool) : (s.takeRecord c q p kn).link.replies = s.link.replies := by
  unfold State.takeRecord; split <;> rfl
@[simp] theorem State.takeRecord_link_lastServed (s : State) (c : ChanId) (q : IncidentCause) (p : Int) (kn : Bool) : (s.takeRecord c q p kn).link.lastServed = s.link.lastServed := by
  unfold State.takeRecord; split <;> rfl
@[simp] theorem State.takeRecord_link_sending (s : State) (c : ChanId) (q : IncidentCause) (p : Int) (kn : Bool) : (s.takeRecord c q p kn).link.sending = s.link.sending := by
  unfold State.takeRecord; split <;> rfl
@[simp] theorem State.takeRecord_link_lengthErrors (s : State) (c : ChanId) (q : IncidentCause) (p : Int) (kn : Bool) : (s.takeRecord c q p kn).link.lengthErrors = s.link.lengthErrors := by
  unfold State.takeRecord; split <;> rfl
@[simp] theorem State.takeRecord_link_crcErrors (s : State) (c : ChanId) (q : IncidentCause) (p : Int) (kn : Bool) : (s.takeRecord c q p kn).link.crcErrors = s.link.crcErrors := by
  unfold State.takeRecord; split <;> rfl
@[simp] theorem State.takeRecord_link_timeouts (s : State) (c : ChanId) (q : IncidentCause) (p : Int) (kn : Bool) : (s.takeRecord c q p kn).link.timeouts = s.link.timeouts := by
  unfold State.takeRecord; split <;> rfl
@[simp] theorem State.takeRecord_link_overruns (s : State) (c : ChanId) (q : IncidentCause) (p : Int) (kn : Bool) : (s.takeRecord c q p kn).link.overruns = s.link.overruns := by
  unfold State.takeRecord; split <;> rfl
@[simp] theorem State.takeRecord_link_locked (s : State) (c : ChanId) (q : IncidentCause) (p : Int) (kn : Bool) : (s.takeRecord c q p kn).link.locked = s.link.locked := by
  unfold State.takeRecord; split <;> rfl
@[simp] theorem State.takeRecordHere_eq (s : State) (c : ChanId) (q : IncidentCause) :
    s.takeRecordHere c q = s.takeRecord c q (s.ch c).pd.position (s.ch c).pd.known := rfl

/-- A record taken with one free: the head of the free list goes to the end of the pending list, with the content. -/
theorem State.takeRecord_cons (s : State) (c : ChanId) (q : IncidentCause) (p : Int) (kn : Bool) {r rest} (h : s.pool.free = r :: rest) :
    s.takeRecord c q p kn = State.postIncident { s with pool := { s.pool with
      records := s.pool.records.set r (s.fillRecord c q p kn), free := rest, waiting := s.pool.waiting ++ [r] } } c r := by
  simp [State.takeRecord, h]

/-- A record asked for with none free is lost. -/
theorem State.takeRecord_nil (s : State) (c : ChanId) (q : IncidentCause) (p : Int) (kn : Bool) (h : s.pool.free = []) :
    s.takeRecord c q p kn = { s with pool := { s.pool with lost := min 255 (s.pool.lost + 1) } } := by
  simp [State.takeRecord, h]

/-! ## Grants -/

@[simp] theorem State.grant_device (s : State) (c : ChanId) : (s.grant c).device = s.device := by
  unfold State.grant; split <;> rfl
@[simp] theorem State.grant_lines (s : State) (c : ChanId) : (s.grant c).lines = s.lines := by
  unfold State.grant; split <;> rfl
@[simp] theorem State.grant_lineSampleIn (s : State) (c : ChanId) : (s.grant c).lineSampleIn = s.lineSampleIn := by
  unfold State.grant; split <;> rfl
@[simp] theorem State.grant_supply (s : State) (c : ChanId) : (s.grant c).supply = s.supply := by
  unfold State.grant; split <;> rfl
@[simp] theorem State.grant_effort (s : State) (c : ChanId) : (s.grant c).effort = s.effort := by
  unfold State.grant; split <;> rfl
@[simp] theorem State.grant_pool (s : State) (c : ChanId) : (s.grant c).pool = s.pool := by
  unfold State.grant; split <;> rfl
@[simp] theorem State.grant_link (s : State) (c : ChanId) : (s.grant c).link = s.link := by
  unfold State.grant; split <;> rfl
@[simp] theorem State.grant_clock (s : State) (c : ChanId) : (s.grant c).clock = s.clock := by
  unfold State.grant; split <;> rfl
@[simp] theorem State.grant_races (s : State) (c : ChanId) : (s.grant c).races = s.races := by
  unfold State.grant; split <;> rfl
@[simp] theorem State.grant_pending (s : State) (c : ChanId) : (s.grant c).pending = s.pending := by
  unfold State.grant; split <;> rfl

theorem State.ch_grant_ne (s : State) {c d : ChanId} (h : d ≠ c) : (s.grant c).ch d = s.ch d := by
  unfold State.grant; split
  · simp [h]
  · rfl

@[simp] theorem State.grantHeads_device (n : Nat) : ∀ s : State, (State.grantHeads n s).device = s.device := by
  induction n with
  | zero => intro s; rfl
  | succ n ih =>
    intro s; unfold State.grantHeads; split
    · rfl
    · split
      · rw [ih]; simp
      · rfl
@[simp] theorem State.grantHeads_lines (n : Nat) : ∀ s : State, (State.grantHeads n s).lines = s.lines := by
  induction n with
  | zero => intro s; rfl
  | succ n ih =>
    intro s; unfold State.grantHeads; split
    · rfl
    · split
      · rw [ih]; simp
      · rfl
@[simp] theorem State.grantHeads_lineSampleIn (n : Nat) : ∀ s : State, (State.grantHeads n s).lineSampleIn = s.lineSampleIn := by
  induction n with
  | zero => intro s; rfl
  | succ n ih =>
    intro s; unfold State.grantHeads; split
    · rfl
    · split
      · rw [ih]; simp
      · rfl
@[simp] theorem State.grantHeads_supply (n : Nat) : ∀ s : State, (State.grantHeads n s).supply = s.supply := by
  induction n with
  | zero => intro s; rfl
  | succ n ih =>
    intro s; unfold State.grantHeads; split
    · rfl
    · split
      · rw [ih]; simp
      · rfl
@[simp] theorem State.grantHeads_effort (n : Nat) : ∀ s : State, (State.grantHeads n s).effort = s.effort := by
  induction n with
  | zero => intro s; rfl
  | succ n ih =>
    intro s; unfold State.grantHeads; split
    · rfl
    · split
      · rw [ih]; simp
      · rfl
@[simp] theorem State.grantHeads_pool (n : Nat) : ∀ s : State, (State.grantHeads n s).pool = s.pool := by
  induction n with
  | zero => intro s; rfl
  | succ n ih =>
    intro s; unfold State.grantHeads; split
    · rfl
    · split
      · rw [ih]; simp
      · rfl
@[simp] theorem State.grantHeads_link (n : Nat) : ∀ s : State, (State.grantHeads n s).link = s.link := by
  induction n with
  | zero => intro s; rfl
  | succ n ih =>
    intro s; unfold State.grantHeads; split
    · rfl
    · split
      · rw [ih]; simp
      · rfl
@[simp] theorem State.grantHeads_clock (n : Nat) : ∀ s : State, (State.grantHeads n s).clock = s.clock := by
  induction n with
  | zero => intro s; rfl
  | succ n ih =>
    intro s; unfold State.grantHeads; split
    · rfl
    · split
      · rw [ih]; simp
      · rfl
@[simp] theorem State.grantHeads_races (n : Nat) : ∀ s : State, (State.grantHeads n s).races = s.races := by
  induction n with
  | zero => intro s; rfl
  | succ n ih =>
    intro s; unfold State.grantHeads; split
    · rfl
    · split
      · rw [ih]; simp
      · rfl
@[simp] theorem State.grantHeads_pending (n : Nat) : ∀ s : State, (State.grantHeads n s).pending = s.pending := by
  induction n with
  | zero => intro s; rfl
  | succ n ih =>
    intro s; unfold State.grantHeads; split
    · rfl
    · split
      · rw [ih]; simp
      · rfl

theorem State.ch_grantHeads (n : Nat) : ∀ (s : State) (c : ChanId), c ∉ s.arbiter.queue.map QueueEntry.chan →
    (State.grantHeads n s).ch c = s.ch c := by
  induction n with
  | zero => intro s c _; rfl
  | succ n ih =>
    intro s c hc; unfold State.grantHeads; split
    · rfl
    · rename_i e rest hq
      split
      · rw [hq] at hc
        simp only [List.map_cons, List.mem_cons, not_or] at hc
        rw [ih]
        · rw [State.ch_grant_ne _ hc.1]; simp
        · have : ∀ t : State, (t.grant e.chan).arbiter.queue = t.arbiter.queue := by
            intro t; unfold State.grant; split <;> rfl
          rw [this]; exact hc.2
      · rfl

@[simp] theorem State.grantPass_device (s : State) : (s.grantPass).device = s.device := by
  simp [State.grantPass]
@[simp] theorem State.grantPass_lines (s : State) : (s.grantPass).lines = s.lines := by
  simp [State.grantPass]
@[simp] theorem State.grantPass_lineSampleIn (s : State) : (s.grantPass).lineSampleIn = s.lineSampleIn := by
  simp [State.grantPass]
@[simp] theorem State.grantPass_supply (s : State) : (s.grantPass).supply = s.supply := by
  simp [State.grantPass]
@[simp] theorem State.grantPass_effort (s : State) : (s.grantPass).effort = s.effort := by
  simp [State.grantPass]
@[simp] theorem State.grantPass_pool (s : State) : (s.grantPass).pool = s.pool := by
  simp [State.grantPass]
@[simp] theorem State.grantPass_link (s : State) : (s.grantPass).link = s.link := by
  simp [State.grantPass]
@[simp] theorem State.grantPass_clock (s : State) : (s.grantPass).clock = s.clock := by
  simp [State.grantPass]
@[simp] theorem State.grantPass_races (s : State) : (s.grantPass).races = s.races := by
  simp [State.grantPass]
@[simp] theorem State.grantPass_pending (s : State) : (s.grantPass).pending = s.pending := by
  simp [State.grantPass]

theorem State.ch_grantPass (s : State) (c : ChanId) (h : c ∉ s.arbiter.queue.map QueueEntry.chan) :
    s.grantPass.ch c = s.ch c := State.ch_grantHeads _ s c h

@[simp] theorem State.detach_device (s : State) (c : ChanId) : (s.detach c).device = s.device := rfl
@[simp] theorem State.detach_lines (s : State) (c : ChanId) : (s.detach c).lines = s.lines := rfl
@[simp] theorem State.detach_lineSampleIn (s : State) (c : ChanId) : (s.detach c).lineSampleIn = s.lineSampleIn := rfl
@[simp] theorem State.detach_supply (s : State) (c : ChanId) : (s.detach c).supply = s.supply := rfl
@[simp] theorem State.detach_effort (s : State) (c : ChanId) : (s.detach c).effort = s.effort := rfl
@[simp] theorem State.detach_pool (s : State) (c : ChanId) : (s.detach c).pool = s.pool := rfl
@[simp] theorem State.detach_link (s : State) (c : ChanId) : (s.detach c).link = s.link := rfl
@[simp] theorem State.detach_clock (s : State) (c : ChanId) : (s.detach c).clock = s.clock := rfl
@[simp] theorem State.detach_races (s : State) (c : ChanId) : (s.detach c).races = s.races := rfl
@[simp] theorem State.detach_pending (s : State) (c : ChanId) : (s.detach c).pending = s.pending := rfl
@[simp] theorem State.ch_detach (s : State) (c d : ChanId) : (s.detach c).ch d = s.ch d := rfl

theorem State.mem_detach_holders (s : State) (c d : ChanId) :
    d ∈ (s.detach c).arbiter.holders ↔ d ∈ s.arbiter.holders ∧ d ≠ c := by simp [State.detach]

theorem State.mem_detach_queue (s : State) (c d : ChanId) :
    d ∈ (s.detach c).arbiter.queue.map QueueEntry.chan ↔ d ∈ s.arbiter.queue.map QueueEntry.chan ∧ d ≠ c := by
  simp only [State.detach, List.mem_map, List.mem_filter]
  constructor
  · rintro ⟨e, ⟨he, hne⟩, rfl⟩; exact ⟨⟨e, he, rfl⟩, by simpa using hne⟩
  · rintro ⟨⟨e, he, rfl⟩, hne⟩; exact ⟨e, ⟨he, by simpa using hne⟩, rfl⟩

@[simp] theorem State.leaveArbiter_device (s : State) (c : ChanId) : (s.leaveArbiter c).device = s.device := by
  unfold State.leaveArbiter; split <;> simp
@[simp] theorem State.leaveArbiter_lines (s : State) (c : ChanId) : (s.leaveArbiter c).lines = s.lines := by
  unfold State.leaveArbiter; split <;> simp
@[simp] theorem State.leaveArbiter_lineSampleIn (s : State) (c : ChanId) : (s.leaveArbiter c).lineSampleIn = s.lineSampleIn := by
  unfold State.leaveArbiter; split <;> simp
@[simp] theorem State.leaveArbiter_supply (s : State) (c : ChanId) : (s.leaveArbiter c).supply = s.supply := by
  unfold State.leaveArbiter; split <;> simp
@[simp] theorem State.leaveArbiter_effort (s : State) (c : ChanId) : (s.leaveArbiter c).effort = s.effort := by
  unfold State.leaveArbiter; split <;> simp
@[simp] theorem State.leaveArbiter_pool (s : State) (c : ChanId) : (s.leaveArbiter c).pool = s.pool := by
  unfold State.leaveArbiter; split <;> simp
@[simp] theorem State.leaveArbiter_link (s : State) (c : ChanId) : (s.leaveArbiter c).link = s.link := by
  unfold State.leaveArbiter; split <;> simp
@[simp] theorem State.leaveArbiter_clock (s : State) (c : ChanId) : (s.leaveArbiter c).clock = s.clock := by
  unfold State.leaveArbiter; split <;> simp
@[simp] theorem State.leaveArbiter_races (s : State) (c : ChanId) : (s.leaveArbiter c).races = s.races := by
  unfold State.leaveArbiter; split <;> simp
@[simp] theorem State.leaveArbiter_pending (s : State) (c : ChanId) : (s.leaveArbiter c).pending = s.pending := by
  unfold State.leaveArbiter; split <;> simp

theorem State.ch_leaveArbiter_self (s : State) (c : ChanId) : (s.leaveArbiter c).ch c = s.ch c := by
  unfold State.leaveArbiter; split
  · rw [State.ch_grantPass]
    · simp
    · rw [State.mem_detach_queue]; simp
  · simp

theorem State.ch_leaveArbiter (s : State) (c d : ChanId) (h : d ∉ s.arbiter.queue.map QueueEntry.chan) :
    (s.leaveArbiter c).ch d = s.ch d := by
  unfold State.leaveArbiter; split
  · rw [State.ch_grantPass]
    · simp
    · rw [State.mem_detach_queue]; simp [h]
  · simp

/-- A channel that holds no slot leaves the arbiter without a grant. -/
theorem State.leaveArbiter_of_not_holder (s : State) (c : ChanId) (h : c ∉ s.arbiter.holders) :
    s.leaveArbiter c = { s with arbiter := ⟨s.arbiter.holders, s.arbiter.queue.filter (fun e => e.chan != c)⟩ } := by
  have h2 : s.arbiter.holders.filter (fun x => x != c) = s.arbiter.holders := by
    rw [List.filter_eq_self]; intro a ha; simp; rintro rfl; exact h ha
  simp [State.leaveArbiter, State.detach, h, h2]

/-! ## Ends and stops -/

@[simp] theorem State.endIdle_device (s : State) (c : ChanId) (r : MotionResult) : (s.endIdle c r).device = s.device := by
  simp [State.endIdle]
@[simp] theorem State.endIdle_lines (s : State) (c : ChanId) (r : MotionResult) : (s.endIdle c r).lines = s.lines := by
  simp [State.endIdle]
@[simp] theorem State.endIdle_lineSampleIn (s : State) (c : ChanId) (r : MotionResult) : (s.endIdle c r).lineSampleIn = s.lineSampleIn := by
  simp [State.endIdle]
@[simp] theorem State.endIdle_supply (s : State) (c : ChanId) (r : MotionResult) : (s.endIdle c r).supply = s.supply := by
  simp [State.endIdle]
@[simp] theorem State.endIdle_effort (s : State) (c : ChanId) (r : MotionResult) : (s.endIdle c r).effort = s.effort := by
  simp [State.endIdle]
@[simp] theorem State.endIdle_pool (s : State) (c : ChanId) (r : MotionResult) : (s.endIdle c r).pool = s.pool := by
  simp [State.endIdle]
@[simp] theorem State.endIdle_clock (s : State) (c : ChanId) (r : MotionResult) : (s.endIdle c r).clock = s.clock := by
  simp [State.endIdle]
@[simp] theorem State.endIdle_races (s : State) (c : ChanId) (r : MotionResult) : (s.endIdle c r).races = s.races := by
  simp [State.endIdle]
@[simp] theorem State.endIdle_pending (s : State) (c : ChanId) (r : MotionResult) : (s.endIdle c r).pending = s.pending := by
  simp [State.endIdle]
@[simp] theorem State.endIdle_link_phase (s : State) (c : ChanId) (r : MotionResult) : (s.endIdle c r).link.phase = s.link.phase := by
  simp [State.endIdle]
@[simp] theorem State.endIdle_link_buffer (s : State) (c : ChanId) (r : MotionResult) : (s.endIdle c r).link.buffer = s.link.buffer := by
  simp [State.endIdle]
@[simp] theorem State.endIdle_link_gap (s : State) (c : ChanId) (r : MotionResult) : (s.endIdle c r).link.gap = s.link.gap := by
  simp [State.endIdle]
@[simp] theorem State.endIdle_link_replies (s : State) (c : ChanId) (r : MotionResult) : (s.endIdle c r).link.replies = s.link.replies := by
  simp [State.endIdle]
@[simp] theorem State.endIdle_link_lastServed (s : State) (c : ChanId) (r : MotionResult) : (s.endIdle c r).link.lastServed = s.link.lastServed := by
  simp [State.endIdle]
@[simp] theorem State.endIdle_link_sending (s : State) (c : ChanId) (r : MotionResult) : (s.endIdle c r).link.sending = s.link.sending := by
  simp [State.endIdle]
@[simp] theorem State.endIdle_link_lengthErrors (s : State) (c : ChanId) (r : MotionResult) : (s.endIdle c r).link.lengthErrors = s.link.lengthErrors := by
  simp [State.endIdle]
@[simp] theorem State.endIdle_link_crcErrors (s : State) (c : ChanId) (r : MotionResult) : (s.endIdle c r).link.crcErrors = s.link.crcErrors := by
  simp [State.endIdle]
@[simp] theorem State.endIdle_link_timeouts (s : State) (c : ChanId) (r : MotionResult) : (s.endIdle c r).link.timeouts = s.link.timeouts := by
  simp [State.endIdle]
@[simp] theorem State.endIdle_link_overruns (s : State) (c : ChanId) (r : MotionResult) : (s.endIdle c r).link.overruns = s.link.overruns := by
  simp [State.endIdle]
@[simp] theorem State.endIdle_link_locked (s : State) (c : ChanId) (r : MotionResult) : (s.endIdle c r).link.locked = s.link.locked := by
  simp [State.endIdle]

theorem State.ch_endIdle_self (s : State) (c : ChanId) (r : MotionResult) : (s.endIdle c r).ch c = (s.ch c).enterIdle := by
  simp [State.endIdle, State.ch_leaveArbiter_self]

theorem State.ch_endIdle (s : State) (c d : ChanId) (r : MotionResult) (hd : d ≠ c)
    (h : d ∉ s.arbiter.queue.map QueueEntry.chan) : (s.endIdle c r).ch d = s.ch d := by
  unfold State.endIdle; rw [State.ch_leaveArbiter]
  · simp [hd]
  · simpa using h

@[simp] theorem State.stopToFault_device (s : State) (c : ChanId) (q : FaultCause) : (s.stopToFault c q).device = s.device := by
  unfold State.stopToFault; dsimp only; split <;> rfl
@[simp] theorem State.stopToFault_lines (s : State) (c : ChanId) (q : FaultCause) : (s.stopToFault c q).lines = s.lines := by
  unfold State.stopToFault; dsimp only; split <;> rfl
@[simp] theorem State.stopToFault_lineSampleIn (s : State) (c : ChanId) (q : FaultCause) : (s.stopToFault c q).lineSampleIn = s.lineSampleIn := by
  unfold State.stopToFault; dsimp only; split <;> rfl
@[simp] theorem State.stopToFault_supply (s : State) (c : ChanId) (q : FaultCause) : (s.stopToFault c q).supply = s.supply := by
  unfold State.stopToFault; dsimp only; split <;> rfl
@[simp] theorem State.stopToFault_effort (s : State) (c : ChanId) (q : FaultCause) : (s.stopToFault c q).effort = s.effort := by
  unfold State.stopToFault; dsimp only; split <;> rfl
@[simp] theorem State.stopToFault_arbiter (s : State) (c : ChanId) (q : FaultCause) : (s.stopToFault c q).arbiter = s.arbiter := by
  unfold State.stopToFault; dsimp only; split <;> rfl
@[simp] theorem State.stopToFault_pool (s : State) (c : ChanId) (q : FaultCause) : (s.stopToFault c q).pool = s.pool := by
  unfold State.stopToFault; dsimp only; split <;> rfl
@[simp] theorem State.stopToFault_clock (s : State) (c : ChanId) (q : FaultCause) : (s.stopToFault c q).clock = s.clock := by
  unfold State.stopToFault; dsimp only; split <;> rfl
@[simp] theorem State.stopToFault_races (s : State) (c : ChanId) (q : FaultCause) : (s.stopToFault c q).races = s.races := by
  unfold State.stopToFault; dsimp only; split <;> rfl
@[simp] theorem State.stopToFault_pending (s : State) (c : ChanId) (q : FaultCause) : (s.stopToFault c q).pending = s.pending := by
  unfold State.stopToFault; dsimp only; split <;> rfl
@[simp] theorem State.stopToFault_link_phase (s : State) (c : ChanId) (q : FaultCause) : (s.stopToFault c q).link.phase = s.link.phase := by
  unfold State.stopToFault; dsimp only; split <;> rfl
@[simp] theorem State.stopToFault_link_buffer (s : State) (c : ChanId) (q : FaultCause) : (s.stopToFault c q).link.buffer = s.link.buffer := by
  unfold State.stopToFault; dsimp only; split <;> rfl
@[simp] theorem State.stopToFault_link_gap (s : State) (c : ChanId) (q : FaultCause) : (s.stopToFault c q).link.gap = s.link.gap := by
  unfold State.stopToFault; dsimp only; split <;> rfl
@[simp] theorem State.stopToFault_link_replies (s : State) (c : ChanId) (q : FaultCause) : (s.stopToFault c q).link.replies = s.link.replies := by
  unfold State.stopToFault; dsimp only; split <;> rfl
@[simp] theorem State.stopToFault_link_lastServed (s : State) (c : ChanId) (q : FaultCause) : (s.stopToFault c q).link.lastServed = s.link.lastServed := by
  unfold State.stopToFault; dsimp only; split <;> rfl
@[simp] theorem State.stopToFault_link_sending (s : State) (c : ChanId) (q : FaultCause) : (s.stopToFault c q).link.sending = s.link.sending := by
  unfold State.stopToFault; dsimp only; split <;> rfl
@[simp] theorem State.stopToFault_link_lengthErrors (s : State) (c : ChanId) (q : FaultCause) : (s.stopToFault c q).link.lengthErrors = s.link.lengthErrors := by
  unfold State.stopToFault; dsimp only; split <;> rfl
@[simp] theorem State.stopToFault_link_crcErrors (s : State) (c : ChanId) (q : FaultCause) : (s.stopToFault c q).link.crcErrors = s.link.crcErrors := by
  unfold State.stopToFault; dsimp only; split <;> rfl
@[simp] theorem State.stopToFault_link_timeouts (s : State) (c : ChanId) (q : FaultCause) : (s.stopToFault c q).link.timeouts = s.link.timeouts := by
  unfold State.stopToFault; dsimp only; split <;> rfl
@[simp] theorem State.stopToFault_link_overruns (s : State) (c : ChanId) (q : FaultCause) : (s.stopToFault c q).link.overruns = s.link.overruns := by
  unfold State.stopToFault; dsimp only; split <;> rfl
@[simp] theorem State.stopToFault_link_locked (s : State) (c : ChanId) (q : FaultCause) : (s.stopToFault c q).link.locked = s.link.locked := by
  unfold State.stopToFault; dsimp only; split <;> rfl

theorem State.ch_stopToFault_self (s : State) (c : ChanId) (q : FaultCause) :
    (s.stopToFault c q).ch c = (s.ch c).discardScratch.rest .fault q := by
  unfold State.stopToFault; dsimp only; split <;> simp

theorem State.ch_stopToFault (s : State) (c d : ChanId) (q : FaultCause) (hd : d ≠ c) :
    (s.stopToFault c q).ch d = s.ch d := by
  unfold State.stopToFault; dsimp only; split <;> simp [hd]

@[simp] theorem State.enterFault_device (s : State) (c : ChanId) (q : FaultCause) : (s.enterFault c q).device = s.device := by
  simp [State.enterFault]
@[simp] theorem State.enterFault_lines (s : State) (c : ChanId) (q : FaultCause) : (s.enterFault c q).lines = s.lines := by
  simp [State.enterFault]
@[simp] theorem State.enterFault_lineSampleIn (s : State) (c : ChanId) (q : FaultCause) : (s.enterFault c q).lineSampleIn = s.lineSampleIn := by
  simp [State.enterFault]
@[simp] theorem State.enterFault_supply (s : State) (c : ChanId) (q : FaultCause) : (s.enterFault c q).supply = s.supply := by
  simp [State.enterFault]
@[simp] theorem State.enterFault_effort (s : State) (c : ChanId) (q : FaultCause) : (s.enterFault c q).effort = s.effort := by
  simp [State.enterFault]
@[simp] theorem State.enterFault_pool (s : State) (c : ChanId) (q : FaultCause) : (s.enterFault c q).pool = s.pool := by
  simp [State.enterFault]
@[simp] theorem State.enterFault_clock (s : State) (c : ChanId) (q : FaultCause) : (s.enterFault c q).clock = s.clock := by
  simp [State.enterFault]
@[simp] theorem State.enterFault_races (s : State) (c : ChanId) (q : FaultCause) : (s.enterFault c q).races = s.races := by
  simp [State.enterFault]
@[simp] theorem State.enterFault_pending (s : State) (c : ChanId) (q : FaultCause) : (s.enterFault c q).pending = s.pending := by
  simp [State.enterFault]
@[simp] theorem State.enterFault_link_phase (s : State) (c : ChanId) (q : FaultCause) : (s.enterFault c q).link.phase = s.link.phase := by
  simp [State.enterFault]
@[simp] theorem State.enterFault_link_buffer (s : State) (c : ChanId) (q : FaultCause) : (s.enterFault c q).link.buffer = s.link.buffer := by
  simp [State.enterFault]
@[simp] theorem State.enterFault_link_gap (s : State) (c : ChanId) (q : FaultCause) : (s.enterFault c q).link.gap = s.link.gap := by
  simp [State.enterFault]
@[simp] theorem State.enterFault_link_replies (s : State) (c : ChanId) (q : FaultCause) : (s.enterFault c q).link.replies = s.link.replies := by
  simp [State.enterFault]
@[simp] theorem State.enterFault_link_lastServed (s : State) (c : ChanId) (q : FaultCause) : (s.enterFault c q).link.lastServed = s.link.lastServed := by
  simp [State.enterFault]
@[simp] theorem State.enterFault_link_sending (s : State) (c : ChanId) (q : FaultCause) : (s.enterFault c q).link.sending = s.link.sending := by
  simp [State.enterFault]
@[simp] theorem State.enterFault_link_lengthErrors (s : State) (c : ChanId) (q : FaultCause) : (s.enterFault c q).link.lengthErrors = s.link.lengthErrors := by
  simp [State.enterFault]
@[simp] theorem State.enterFault_link_crcErrors (s : State) (c : ChanId) (q : FaultCause) : (s.enterFault c q).link.crcErrors = s.link.crcErrors := by
  simp [State.enterFault]
@[simp] theorem State.enterFault_link_timeouts (s : State) (c : ChanId) (q : FaultCause) : (s.enterFault c q).link.timeouts = s.link.timeouts := by
  simp [State.enterFault]
@[simp] theorem State.enterFault_link_overruns (s : State) (c : ChanId) (q : FaultCause) : (s.enterFault c q).link.overruns = s.link.overruns := by
  simp [State.enterFault]
@[simp] theorem State.enterFault_link_locked (s : State) (c : ChanId) (q : FaultCause) : (s.enterFault c q).link.locked = s.link.locked := by
  simp [State.enterFault]

theorem State.ch_enterFault_self (s : State) (c : ChanId) (q : FaultCause) :
    (s.enterFault c q).ch c = (s.ch c).discardScratch.rest .fault q := by
  simp [State.enterFault, State.ch_leaveArbiter_self, State.ch_stopToFault_self]

theorem State.ch_enterFault (s : State) (c d : ChanId) (q : FaultCause) (hd : d ≠ c)
    (h : d ∉ s.arbiter.queue.map QueueEntry.chan) : (s.enterFault c q).ch d = s.ch d := by
  unfold State.enterFault
  rw [State.ch_leaveArbiter _ _ _ (by simpa using h), State.ch_stopToFault _ _ _ _ hd]

@[simp] theorem State.dwellIdle_eq (s : State) (c : ChanId) (r : MotionResult) :
    s.dwellIdle c r = s.setCh c ((s.ch c).enterDwell (.idle r)) := rfl

/-- A channel that enters DWELL with a successor dwells toward it. -/
theorem Chan.successor_enterDwell (k : Chan) (succ : Successor) : (k.enterDwell succ).successor = some succ := by
  simp [Chan.successor, Chan.enterDwell]

/-! ## Fault lines -/

@[simp] theorem State.ch_judgeLatch (s : State) (l : LineId) (c : ChanId) : (s.judgeLatch l).ch c = s.ch c := by
  unfold State.judgeLatch; dsimp only; split <;> rfl
@[simp] theorem State.judgeLatch_device (s : State) (l : LineId) : (s.judgeLatch l).device = s.device := by
  unfold State.judgeLatch; dsimp only; split <;> rfl
@[simp] theorem State.judgeLatch_lineSampleIn (s : State) (l : LineId) : (s.judgeLatch l).lineSampleIn = s.lineSampleIn := by
  unfold State.judgeLatch; dsimp only; split <;> rfl
@[simp] theorem State.judgeLatch_supply (s : State) (l : LineId) : (s.judgeLatch l).supply = s.supply := by
  unfold State.judgeLatch; dsimp only; split <;> rfl
@[simp] theorem State.judgeLatch_effort (s : State) (l : LineId) : (s.judgeLatch l).effort = s.effort := by
  unfold State.judgeLatch; dsimp only; split <;> rfl
@[simp] theorem State.judgeLatch_arbiter (s : State) (l : LineId) : (s.judgeLatch l).arbiter = s.arbiter := by
  unfold State.judgeLatch; dsimp only; split <;> rfl
@[simp] theorem State.judgeLatch_pool (s : State) (l : LineId) : (s.judgeLatch l).pool = s.pool := by
  unfold State.judgeLatch; dsimp only; split <;> rfl
@[simp] theorem State.judgeLatch_link (s : State) (l : LineId) : (s.judgeLatch l).link = s.link := by
  unfold State.judgeLatch; dsimp only; split <;> rfl
@[simp] theorem State.judgeLatch_clock (s : State) (l : LineId) : (s.judgeLatch l).clock = s.clock := by
  unfold State.judgeLatch; dsimp only; split <;> rfl
@[simp] theorem State.judgeLatch_races (s : State) (l : LineId) : (s.judgeLatch l).races = s.races := by
  unfold State.judgeLatch; dsimp only; split <;> rfl
@[simp] theorem State.judgeLatch_pending (s : State) (l : LineId) : (s.judgeLatch l).pending = s.pending := by
  unfold State.judgeLatch; dsimp only; split <;> rfl
@[simp] theorem State.judgeLatch_chans (s : State) (l : LineId) : (s.judgeLatch l).chans = s.chans := by
  unfold State.judgeLatch; dsimp only; split <;> rfl
@[simp] theorem State.judgeLatchesOf_device (s : State) (c : ChanId) : (s.judgeLatchesOf c).device = s.device := by
  simp only [State.judgeLatchesOf, allLines, List.foldl]; (repeat' split) <;> simp
@[simp] theorem State.judgeLatchesOf_lineSampleIn (s : State) (c : ChanId) : (s.judgeLatchesOf c).lineSampleIn = s.lineSampleIn := by
  simp only [State.judgeLatchesOf, allLines, List.foldl]; (repeat' split) <;> simp
@[simp] theorem State.judgeLatchesOf_supply (s : State) (c : ChanId) : (s.judgeLatchesOf c).supply = s.supply := by
  simp only [State.judgeLatchesOf, allLines, List.foldl]; (repeat' split) <;> simp
@[simp] theorem State.judgeLatchesOf_effort (s : State) (c : ChanId) : (s.judgeLatchesOf c).effort = s.effort := by
  simp only [State.judgeLatchesOf, allLines, List.foldl]; (repeat' split) <;> simp
@[simp] theorem State.judgeLatchesOf_arbiter (s : State) (c : ChanId) : (s.judgeLatchesOf c).arbiter = s.arbiter := by
  simp only [State.judgeLatchesOf, allLines, List.foldl]; (repeat' split) <;> simp
@[simp] theorem State.judgeLatchesOf_pool (s : State) (c : ChanId) : (s.judgeLatchesOf c).pool = s.pool := by
  simp only [State.judgeLatchesOf, allLines, List.foldl]; (repeat' split) <;> simp
@[simp] theorem State.judgeLatchesOf_link (s : State) (c : ChanId) : (s.judgeLatchesOf c).link = s.link := by
  simp only [State.judgeLatchesOf, allLines, List.foldl]; (repeat' split) <;> simp
@[simp] theorem State.judgeLatchesOf_clock (s : State) (c : ChanId) : (s.judgeLatchesOf c).clock = s.clock := by
  simp only [State.judgeLatchesOf, allLines, List.foldl]; (repeat' split) <;> simp
@[simp] theorem State.judgeLatchesOf_races (s : State) (c : ChanId) : (s.judgeLatchesOf c).races = s.races := by
  simp only [State.judgeLatchesOf, allLines, List.foldl]; (repeat' split) <;> simp
@[simp] theorem State.judgeLatchesOf_pending (s : State) (c : ChanId) : (s.judgeLatchesOf c).pending = s.pending := by
  simp only [State.judgeLatchesOf, allLines, List.foldl]; (repeat' split) <;> simp
@[simp] theorem State.judgeLatchesOf_chans (s : State) (c : ChanId) : (s.judgeLatchesOf c).chans = s.chans := by
  simp only [State.judgeLatchesOf, allLines, List.foldl]; (repeat' split) <;> simp
@[simp] theorem State.ch_judgeLatchesOf (s : State) (c d : ChanId) : (s.judgeLatchesOf c).ch d = s.ch d := by
  simp [State.ch]

@[simp] theorem State.assertOn_device (s : State) (l : LineId) (c : ChanId) : (s.assertOn l c).device = s.device := by
  unfold State.assertOn; split <;> simp
@[simp] theorem State.assertOn_lines (s : State) (l : LineId) (c : ChanId) : (s.assertOn l c).lines = s.lines := by
  unfold State.assertOn; split <;> simp
@[simp] theorem State.assertOn_lineSampleIn (s : State) (l : LineId) (c : ChanId) : (s.assertOn l c).lineSampleIn = s.lineSampleIn := by
  unfold State.assertOn; split <;> simp
@[simp] theorem State.assertOn_supply (s : State) (l : LineId) (c : ChanId) : (s.assertOn l c).supply = s.supply := by
  unfold State.assertOn; split <;> simp
@[simp] theorem State.assertOn_effort (s : State) (l : LineId) (c : ChanId) : (s.assertOn l c).effort = s.effort := by
  unfold State.assertOn; split <;> simp
@[simp] theorem State.assertOn_clock (s : State) (l : LineId) (c : ChanId) : (s.assertOn l c).clock = s.clock := by
  unfold State.assertOn; split <;> simp
@[simp] theorem State.assertOn_races (s : State) (l : LineId) (c : ChanId) : (s.assertOn l c).races = s.races := by
  unfold State.assertOn; split <;> simp
@[simp] theorem State.assertOn_pending (s : State) (l : LineId) (c : ChanId) : (s.assertOn l c).pending = s.pending := by
  unfold State.assertOn; split <;> simp

/-- An assertion acts on a channel by a record, its entry into FAULT, and the loss of its slot or queue entry. -/
theorem State.assertOn_eq (s : State) (l : LineId) (c : ChanId) (h : s.assertable c = true) : s.assertOn l c =
    ((s.takeRecordHere c (.bridge l)).stopToFault c (.bridge l)).detach c := by
  unfold State.assertable at h
  unfold State.assertOn
  split <;> simp_all

/-- A channel told of an assertion that acts on it is in FAULT by that line. -/
theorem State.ch_assertOn_self (s : State) (l : LineId) (c : ChanId) (h : s.assertable c = true) :
    (s.assertOn l c).ch c = (s.ch c).discardScratch.rest .fault (.bridge l) := by
  rw [State.assertOn_eq s l c h]; simp [State.ch_stopToFault_self]

/-- A channel told of an assertion leaves every other channel alone. -/
theorem State.ch_assertOn (s : State) (l : LineId) (c d : ChanId) (hd : d ≠ c) : (s.assertOn l c).ch d = s.ch d := by
  unfold State.assertOn; split <;> simp [State.ch_stopToFault, hd]

/-! ## Requests -/

/-- A request that is judged: its owner acts, and the reply joins the queue. -/
theorem request_hearing (s : State) (type tag : Byte) (owner : State → Answer × State)
    (h : s.link.resetAwaited = false) (h4 : s.link.replies.length < 4) :
    request s type tag owner = .next (State.serve { (owner s).2 with link := { (owner s).2.link with
      replies := (owner s).2.link.replies ++ [⟨type + 0x80, tag, (owner s).1.payload, (owner s).1.reset⟩] } }) := by
  simp [request, done, State.dispatch, h, Nat.not_le.mpr h4]

/-- A request that finds the reply queue full. -/
theorem request_overrun (s : State) (type tag : Byte) (owner : State → Answer × State)
    (h : s.link.resetAwaited = false) (h4 : 4 ≤ s.link.replies.length) :
    request s type tag owner = .next (State.serve { s with link := { s.link with overruns := countUp s.link.overruns } }) := by
  simp [request, done, State.dispatch, h, h4]

/-- A request while a reset is awaited. -/
theorem request_awaited (s : State) (type tag : Byte) (owner : State → Answer × State)
    (h : s.link.resetAwaited = true) : request s type tag owner = .next s.serve := by
  simp [request, done, State.dispatch, h]

end Sys2Proof.Machine
end

