-- ==== Sys2Proof/Laws/Motion.lean ====
section
/-! SUPPORT. Spec lemmas of slots and queue, of the decoder's update, and of the entries into DWELL. -/

namespace Sys2Proof.Machine

/-! ## Slots and the queue -/

theorem mem_insertChan (c x : ChanId) (l : List ChanId) : x ∈ insertChan c l ↔ x = c ∨ x ∈ l := by
  induction l with
  | nil => simp [insertChan]
  | cons d ds ih =>
    unfold insertChan
    split
    · simp
    · split
      · rename_i h; subst h; simp
      · simp [ih]; tauto

/-- A new entry goes behind every entry of its class. -/
theorem insertEntry_eq (e : QueueEntry) (q : List QueueEntry) (h : heldFirst q) : insertEntry e q =
    if e.held then q.filter (fun e => e.held) ++ [e] ++ q.filter (fun e => !e.held) else q ++ [e] := by
  induction q with
  | nil => cases hh : e.held <;> simp [insertEntry]
  | cons d ds ih =>
    have h2 := ih (List.pairwise_cons.mp h).2
    have h1 := (List.pairwise_cons.mp h).1
    cases he : e.held <;> cases hd : d.held <;> simp [insertEntry, he, hd, h2]
    have hall : ∀ x ∈ ds, x.held = false := by
      intro x hx; by_contra hc; simp at hc; have := h1 x hx hc; simp_all
    have hnone : ds.filter (fun e => e.held) = [] := by simp; exact hall
    have hsome : ds.filter (fun e => !e.held) = ds := by
      rw [List.filter_eq_self]; intro x hx; simp [hall x hx]
    simp [hnone, hsome]

/-- No grant is made while none can be. -/
theorem State.grantHeads_of_not_canGrant (n : Nat) (s : State) (h : s.canGrant = false) : State.grantHeads n s = s := by
  cases n with
  | zero => rfl
  | succ n =>
    unfold State.grantHeads
    split
    · rfl
    · simp [h]

/-- A channel outside slots and queue stays outside them in a grant pass. -/
theorem State.not_mem_grantHeads (c : ChanId) (n : Nat) : ∀ u : State, c ∉ u.arbiter.holders →
    c ∉ u.arbiter.queue.map QueueEntry.chan →
    c ∉ (State.grantHeads n u).arbiter.holders ∧ c ∉ (State.grantHeads n u).arbiter.queue.map QueueEntry.chan := by
  induction n with
  | zero => intro u h1 h2; exact ⟨h1, h2⟩
  | succ n ih =>
    intro u h1 h2
    unfold State.grantHeads
    split
    · exact ⟨h1, h2⟩
    · split
      · rename_i e rest hq hg
        rw [hq] at h2
        simp at h2
        apply ih
        · unfold State.grant
          split
          · simp [mem_insertChan, h1, h2.1]
          · exact h1
        · unfold State.grant; split <;> simpa using h2.2
      · exact ⟨h1, h2⟩

/-- A channel that leaves the arbiter holds no slot and no entry. -/
theorem State.not_mem_leaveArbiter (s : State) (c : ChanId) :
    c ∉ (s.leaveArbiter c).arbiter.holders ∧ c ∉ (s.leaveArbiter c).arbiter.queue.map QueueEntry.chan := by
  have h1 : c ∉ (s.detach c).arbiter.holders := by rw [State.mem_detach_holders]; simp
  have h2 : c ∉ (s.detach c).arbiter.queue.map QueueEntry.chan := by rw [State.mem_detach_queue]; simp
  unfold State.leaveArbiter
  split
  · exact State.not_mem_grantHeads c _ _ h1 h2
  · exact ⟨h1, h2⟩

/-- The end of a motion that holds no slot: no grant follows. -/
theorem State.endIdle_of_not_holder (s : State) (c : ChanId) (r : MotionResult) (h : c ∉ s.arbiter.holders) :
    s.endIdle c r = { (s.modCh c Chan.enterIdle).postMotionEnd c r with
      arbiter := ⟨s.arbiter.holders, s.arbiter.queue.filter (fun e => e.chan != c)⟩ } := by
  unfold State.endIdle
  rw [State.leaveArbiter_of_not_holder _ _ (by simpa using h)]
  simp

/-! ## States of a channel -/

/-- A channel with a successor is in DWELL. -/
theorem Chan.dwell_of_successor {k : Chan} {x : Successor} (h : k.successor = some x) : k.ms.state = .dwell := by
  unfold Chan.successor at h
  split at h
  · assumption
  · simp at h

theorem Chan.dwellsToward_enterDwell (k : Chan) (x : Successor) : (k.enterDwell x).DwellsToward x := by
  simp +contextual [Chan.DwellsToward, Chan.enterDwell, Chan.successor]

/-- An entry into STARTUP begins the drive of its motion with the set it copies (R43 to R47, R148). -/
theorem Chan.beginsDrive_enterStartup (k : Chan) (su : Supply) (m : Motion) :
    (k.enterStartup su m).out.BeginsDrive k.ms.pending m su := by
  have hd : k.ms.pending.runDuty m = (if m = .normalize .seek then k.ms.pending.get .seekDuty
      else if m.dir = .closing then k.ms.pending.get .closingDuty else k.ms.pending.get .openingDuty) := by
    unfold ParamSet.runDuty
    split
    · rfl
    · rename_i h
      rw [if_neg h]
      cases m.dir <;> rfl
  have hl : ∀ r, su.limit r = if su.state = .high then min r (16384000 / su.u) else r := by
    intro r; unfold Supply.limit; split <;> simp_all
  have hm : m.dir.mode = if m.dir = .closing then .driveClose else .driveOpen := by cases m.dir <;> rfl
  simp only [DriveOut.BeginsDrive, Chan.enterStartup, DriveOut.begin, Sequencer.copySets, hd, hl, hm]
  exact ⟨trivial, trivial, trivial, rfl, rfl, trivial, trivial⟩

theorem State.sameOthers_setCh (s : State) (c : ChanId) (k : Chan) : s.SameOthers (s.setCh c k) c :=
  fun d hd => by simp [hd]

/-- An adaptation touches the profile alone. -/
theorem Chan.adapt_fields (k : Chan) (u d f : Bool) :
    (k.adapt u d f).pd = k.pd ∧ (k.adapt u d f).ms = k.ms ∧ (k.adapt u d f).ee = k.ee ∧ (k.adapt u d f).out = k.out := by
  unfold Chan.adapt; split <;> simp

theorem zoneAt_eq_seal (ps : ParamSet) (p : Int) : zoneAt ps p = .seal ↔ p < (ps.get .zSeal : Int) := by
  unfold zoneAt
  split
  · simp_all
  · split <;> simp_all

/-! ## The decoder -/

/-- A phase accepted at the other level changes that level alone, and what was sampled. -/
theorem Decoder.flip_fields (d : Decoder) (ph : HallPhase) :
    (d.flip ph).position = d.position ∧ (d.flip ph).known = d.known ∧ (d.flip ph).timer = d.timer ∧
      (d.flip ph).overflow = d.overflow ∧ (d.flip ph).ring = d.ring ∧ (d.flip ph).watchdog = d.watchdog ∧
      (d.flip ph).confirm = d.confirm ∧ (d.flip ph).difference = d.difference ∧ (d.flip ph).travel = d.travel ∧
      (d.flip ph).drive = d.drive ∧ (d.flip ph).filtA = (if ph = .a then !d.filtA else d.filtA) ∧
      (d.flip ph).filtB = (if ph = .b then !d.filtB else d.filtB) := by
  cases ph <;> simp only [Decoder.flip, Decoder.flipA, Decoder.flipB] <;> split <;> simp

/-- A count at the decoder touches sequencer, outputs and profile not at all. -/
theorem Chan.decodeCount_fields (k : Chan) (ph : HallPhase) :
    (k.decodeCount ph).ms = k.ms ∧ (k.decodeCount ph).out = k.out ∧ (k.decodeCount ph).rps = k.rps := by
  unfold Chan.decodeCount; dsimp only; split <;> simp [Chan.raise]

/-- The step of a count in the position touches position and validity alone. -/
theorem Decoder.countPosition_eq (d : Decoder) (l : Nat) (dir : Dir) : d.countPosition l dir =
    { d with position := (d.countPosition l dir).position, known := (d.countPosition l dir).known } := by
  unfold Decoder.countPosition; dsimp only; (repeat' split) <;> simp

end Sys2Proof.Machine
end

