-- ==== Sys2Proof/Laws/Adaptation.lean ====
section
/-! SUPPORT. Spec lemmas of the adaptation of a profile and of its gap completion. -/

namespace Sys2Proof.Machine

/-- There is a nearest cell as soon as there is a candidate. -/
theorem nearestCell_eq_none (k : Fin 64) : ∀ L, nearestCell k L = none ↔ L = []
  | [] => by simp [nearestCell]
  | j :: js => by
    unfold nearestCell
    split
    · simp
    · split
      · simp
      · split <;> simp

/-- The nearest candidate, of two as near the higher one (R130). -/
theorem nearestCell_spec (k : Fin 64) : ∀ L b, nearestCell k L = some b →
    b ∈ L ∧ ∀ h ∈ L, cellDistance k b < cellDistance k h ∨ (cellDistance k b = cellDistance k h ∧ h ≤ b)
  | [], b, e => by simp [nearestCell] at e
  | j :: js, b, e => by
    unfold nearestCell at e
    split at e
    · rename_i hn
      rw [nearestCell_eq_none] at hn
      subst hn
      simp at e; subst e; simp
    · rename_i b' hb'
      obtain ⟨i1, i2⟩ := nearestCell_spec k js b' hb'
      split at e
      · rename_i hlt
        simp at e; subst e
        refine ⟨by simp, ?_⟩
        intro h hh
        rcases List.mem_cons.1 hh with rfl | hh
        · exact Or.inr ⟨rfl, le_refl _⟩
        · rcases i2 h hh with h1 | h1 <;> left <;> omega
      · split at e
        · rename_i hlt heq
          simp at e; subst e
          refine ⟨by simp, ?_⟩
          intro h hh
          rcases List.mem_cons.1 hh with rfl | hh
          · exact Or.inr ⟨rfl, le_refl _⟩
          · rcases i2 h hh with h1 | h1
            · left; omega
            · right; refine ⟨by omega, ?_⟩
              have := h1.2; have := heq.2; rw [Fin.le_def] at *; omega
        · rename_i hlt heq
          simp at e; subst e
          refine ⟨List.mem_cons_of_mem _ i1, ?_⟩
          intro h hh
          rcases List.mem_cons.1 hh with rfl | hh
          · by_cases hd : cellDistance k b' < cellDistance k h
            · left; exact hd
            · right; refine ⟨by omega, ?_⟩
              rw [Fin.le_def]; by_contra hc; exact heq ⟨by omega, by omega⟩
          · exact i2 h hh

/-- The distance of two cells. -/
theorem cellDistance_eq (i j : Fin 64) : cellDistance i j = ((i.val : Int) - j.val).natAbs := by
  unfold cellDistance; omega

/-- The number of cells with a property. -/
theorem countCells_eq (f : Fin 64 → Bool) : countCells f = (List.finRange 64).countP f := by
  unfold countCells allCells; rw [List.countP_eq_length_filter]

/-- A cell stays EMPTY when it was and no measurement was made. -/
theorem Cell.adapt_eq_empty (c : Cell) (p : ScratchPair) (sh : Nat) : (c.adapt p sh).state = .empty ↔ p.count = 0 ∧
    c.state = .empty := by
  unfold Cell.adapt
  by_cases hc : p.count = 0
  · rw [if_pos hc]; exact ⟨fun h => ⟨hc, h⟩, fun h => h.2⟩
  · rw [if_neg hc]
    refine ⟨?_, fun h => absurd h.1 hc⟩
    cases hs : c.state with
    | empty => dsimp only; intro h; cases h
    | valid =>
      dsimp only
      intro h
      have : ∀ x : Cell, x.state = .valid → x.state ≠ .empty := by intro x hx; rw [hx]; decide
      exfalso; revert h
      split
      · exact this _ hs
      · unfold Cell.adaptOutOfBand; split <;> exact this _ hs

end Sys2Proof.Machine
end

