-- ==== Sys2Proof/Laws/Clock.lean ====
section
/-! SUPPORT. Spec lemmas of the part's own clock: one microsecond of a channel, and which events are due. -/

namespace Sys2Proof.Machine

/-- One microsecond of a channel is its own tick. -/
theorem State.ch_elapse (s : State) (c : ChanId) : s.elapse.ch c = (s.ch c).tick := by
  unfold State.elapse State.linesTick
  dsimp only
  split <;> simp [State.ch, State.mapCh]

theorem mem_dueIf (p : Bool) (e i : Instr) : e ∈ dueIf p i ↔ p = true ∧ e = i := by cases p <;> simp [dueIf]

/-- What is due in the part: at its channels, at its lines, and of what the channels share. -/
theorem State.mem_due (s : State) (e : Instr) : e ∈ s.due ↔
    (∃ c, e ∈ (s.ch c).due c ∨ (oldestRequest c s.effort.requests).isSome = true ∧ e = .evaluation c) ∨
    (∃ l : LineId, e ∈ s.lines[l].due l) ∨ (s.supply.sampleIn = 0 ∧ e = .supplySample s.supply.pin) ∨
    (reached s.clock.ms s.effort.hold = true ∧ e = .commonModeHoldExpiry) ∨
    (reached s.clock.ms s.effort.staleness = true ∧ e = .roadLevelStalenessExpiry) ∨
    (expired s.link.gap = true ∧ e = .gapTimerExpiry) ∨
    ((s.link.sending.any (fun f => f.left == 0)) = true ∧ e = .transmitFrameEnd) := by
  have h1 : ∀ l : LineId, l ∈ allLines := by decide
  simp only [State.due, List.mem_append, List.mem_flatMap, mem_allChans, h1, true_and, mem_dueIf, beq_iff_eq, or_assoc]

/-- What is due at a channel. -/
theorem Chan.mem_due (k : Chan) (c : ChanId) (e : Instr) : e ∈ k.due c ↔ e ∈ k.pd.dueTransition c ∨
    (k.pd.overflows (k.ms.active.get .captureTick) = true ∧ e = .intervalTimerOverflow c) ∨
    (k.pd.watchdog = some 0 ∧ e = .stallWatchdogExpiry c) ∨
    ((k.ms.state = .dwell ∧ k.ms.dwell.map DwellRecord.timer = some 0) ∧ e = .dwellExpiry c) ∨
    ((k.ms.state = .backoff ∧ k.ms.backoff.bind BackoffRecord.timer = some 0) ∧ e = .backoffTimerExpiry c) ∨
    (k.ms.lease = some 0 ∧ e = .leaseExpiry c) ∨
    ((k.out.step.isSome = true ∧ k.out.stepIn = 0) ∧ e = .rampStep c) ∨
    ((∃ t, k.out.pwm = some t ∧ 50 ≤ t) ∧ e = .pwmPeriodBoundary c) := by
  simp only [Chan.due, List.mem_append, mem_dueIf, or_assoc, expired, beq_iff_eq, Bool.and_eq_true]
  cases k.ms.dwell <;> cases k.ms.backoff <;> cases k.out.pwm <;> simp

/-- What is due at a fault line: the event its samples show (R51). -/
theorem FaultLine.mem_due (f : FaultLine) (l : LineId) (e : Instr) : e ∈ f.due l ↔
    ((f.asserted = false ∧ ∀ x ∈ f.hist, x = true) ∧ e = .faultLineAssertion l) ∨
    ((f.asserted = true ∧ ∀ x ∈ f.hist, x = false) ∧ e = .faultLineRelease l) := by
  simp [FaultLine.due, mem_dueIf]

/-- Which transition the samples of a channel's phases show (R19 to R22). -/
theorem Decoder.mem_dueTransition (d : Decoder) (c : ChanId) (e : Instr) : e ∈ d.dueTransition c ↔
    (phaseChanges d.histA d.filtA = true ∧ phaseChanges d.histB d.filtB = true ∧ e = .illegalTransition c) ∨
    (phaseChanges d.histA d.filtA = true ∧ phaseChanges d.histB d.filtB = false ∧ e = .count c .a) ∨
    (phaseChanges d.histA d.filtA = false ∧ phaseChanges d.histB d.filtB = true ∧ e = .count c .b) := by
  unfold Decoder.dueTransition
  cases phaseChanges d.histA d.filtA <;> cases phaseChanges d.histB d.filtB <;> simp

/-- A channel has a request to evaluate exactly when the list holds one. -/
theorem oldestRequest_isSome (c : ChanId) (rs : List EvalRequest) :
    (oldestRequest c rs).isSome = true ↔ ∃ q ∈ rs, q.chan = c := by simp [oldestRequest]

end Sys2Proof.Machine
end

