-- ==== Sys2Proof/Laws/Requests.lean ====
section
/-! SUPPORT. A judged request in one line: what its owner answers is what the part answers, on the state its owner leaves. -/

namespace Sys2Proof.Machine

/-- A judged request whose owner answers a status and fields and leaves a state. -/
theorem request_answered {s t : State} {type tag : Byte} {owner : State → Answer × State} {st : Status}
    {fields : List Byte} (h : s.hearing) (ho : owner s = (answer st fields, t)) :
    request s type tag owner = .next (t.answered (type + 0x80) tag st.code fields) := by
  rw [request_hearing _ _ _ _ h.1 h.2, ho]; rfl

@[simp] theorem State.ch_answered (s : State) (ty tag st : Byte) (fs : List Byte) (c : ChanId) :
    (s.answered ty tag st fs).ch c = s.ch c := rfl

@[simp] theorem State.answered_device (s : State) (ty tag st : Byte) (fs : List Byte) :
    (s.answered ty tag st fs).device = s.device := rfl

@[simp] theorem State.answered_lines (s : State) (ty tag st : Byte) (fs : List Byte) :
    (s.answered ty tag st fs).lines = s.lines := rfl

@[simp] theorem State.answered_supply (s : State) (ty tag st : Byte) (fs : List Byte) :
    (s.answered ty tag st fs).supply = s.supply := rfl

@[simp] theorem State.answered_effort (s : State) (ty tag st : Byte) (fs : List Byte) :
    (s.answered ty tag st fs).effort = s.effort := rfl

@[simp] theorem State.answered_arbiter (s : State) (ty tag st : Byte) (fs : List Byte) :
    (s.answered ty tag st fs).arbiter = s.arbiter := rfl

@[simp] theorem State.answered_pool (s : State) (ty tag st : Byte) (fs : List Byte) :
    (s.answered ty tag st fs).pool = s.pool := rfl

@[simp] theorem State.answered_clock (s : State) (ty tag st : Byte) (fs : List Byte) :
    (s.answered ty tag st fs).clock = s.clock := rfl

@[simp] theorem State.answered_chans (s : State) (ty tag st : Byte) (fs : List Byte) :
    (s.answered ty tag st fs).chans = s.chans := rfl

@[simp] theorem State.answered_replies (s : State) (ty tag st : Byte) (fs : List Byte) :
    (s.answered ty tag st fs).link.replies = s.link.replies ++ [⟨ty, tag, st :: fs, none⟩] := by simp [State.answered]

/-- While a reply waits, no notice is taken. -/
@[simp] theorem Link.serve_notices_of_reply (l : Link) (h : l.replies ≠ []) : l.serve.notices = l.notices := by
  unfold Link.serve; split
  · rfl
  · rfl
  · rename_i hr; exact absurd hr h

/-- A transmitter that is sending goes on. -/
@[simp] theorem Link.serve_of_sending (l : Link) (h : l.sending.isSome = true) : l.serve = l := by
  obtain ⟨f, hf⟩ := Option.isSome_iff_exists.mp h
  unfold Link.serve; rw [hf]

@[simp] theorem State.answered_notices (s : State) (ty tag st : Byte) (fs : List Byte) :
    (s.answered ty tag st fs).link.notices = s.link.notices := by simp [State.answered]

/-! ## CONFIGURE by the outcome of its checks -/

theorem configure_chan_ok {s : State} {tag ident ch : Byte} {value : Word16} {p : ChanParam} {c : ChanId} (h : s.hearing)
    (hp : ident.toNat = p.row.ident) (hc : ch.toNat = c.val) (hj : s.judgeChan c p value.toNat = none) :
    exec (.configure tag ident ch value) s =
      .next ((s.writeChan c p (chanTaken (s.ch c).ms.pending p value.toNat)).answered 0x82 tag 0
        (paramFields ident ch (chanTaken (s.ch c).ms.pending p value.toNat))) :=
  request_answered h (show reqConfigure ident ch value.toNat s = (answer .ok _, _) by
    simp [reqConfigure, ParamId.ofByte_chan hp, chanOf_eq hc, hj])

theorem configure_chan_refused {s : State} {tag ident ch : Byte} {value : Word16} {p : ChanParam} {c : ChanId}
    {st : Status} (h : s.hearing) (hp : ident.toNat = p.row.ident) (hc : ch.toNat = c.val)
    (hj : s.judgeChan c p value.toNat = some st) :
    exec (.configure tag ident ch value) s =
      .next (s.answered 0x82 tag st.code (paramFields ident ch ((s.ch c).ms.pending.get p))) :=
  request_answered h (show reqConfigure ident ch value.toNat s = (answer st _, s) by
    simp [reqConfigure, ParamId.ofByte_chan hp, chanOf_eq hc, hj])

theorem configure_dev_ok {s : State} {tag ident ch : Byte} {value : Word16} {p : DevParam} (h : s.hearing)
    (hp : ident.toNat = p.ident) (hj : s.judgeDev p = none) :
    exec (.configure tag ident ch value) s = .next ((s.writeDev p (p.taken value.toNat)).answered 0x82 tag 0
      (paramFields ident ch (p.taken value.toNat))) :=
  request_answered h (show reqConfigure ident ch value.toNat s = (answer .ok _, _) by
    simp [reqConfigure, ParamId.ofByte_dev hp, hj])

theorem configure_dev_refused {s : State} {tag ident ch : Byte} {value : Word16} {p : DevParam} {st : Status}
    (h : s.hearing) (hp : ident.toNat = p.ident) (hj : s.judgeDev p = some st) :
    exec (.configure tag ident ch value) s =
      .next (s.answered 0x82 tag st.code (paramFields ident ch (s.device.get p))) :=
  request_answered h (show reqConfigure ident ch value.toNat s = (answer st _, s) by
    simp [reqConfigure, ParamId.ofByte_dev hp, hj])

/-! ## MOVE by its entries -/

theorem moveAll_fold (k : MoveKind) (d : Dir) (target : Nat) : ∀ (cs : List ChanId) (s : State) (pre : List Byte),
    cs.foldl (fun (r : List Byte × State) c =>
      let m := requestedMotion k d target ((r.2.ch c).ms.active.get .travelLength)
      let o := r.2.moveOne c m
      (r.1 ++ ([byteOf c.val, o.1.code] ++ le16 m.reportedTarget), o.2)) (pre, s) =
    (pre ++ (State.moveAll k d target cs s).1, (State.moveAll k d target cs s).2) := by
  intro cs
  induction cs with
  | nil => intro s pre; simp [State.moveAll]
  | cons c cs ih => intro s pre; simp only [List.foldl_cons]; rw [ih]; simp [State.moveAll]

theorem move_eq {s : State} {tag set kind dir : Byte} {target : Word16} {k : MoveKind} {d : Dir} (h : s.hearing)
    (hk : kindOf kind = some k) (hd : dirOf dir = some d) :
    exec (.move tag set kind dir target) s = .next ((State.moveAll k d target.toNat (chansOf set) s).2.answered 0x84 tag 0
      (State.moveAll k d target.toNat (chansOf set) s).1) :=
  request_answered h (show reqMove set kind dir target.toNat s = (answer .ok _, _) by simp only [reqMove, hk, hd])

/-- A MOVE of one channel: its judgement, its effect and its one entry. -/
theorem move_one {s : State} {tag set kind dir : Byte} {target : Word16} {k : MoveKind} {d : Dir} {c : ChanId}
    (h : s.hearing) (hc : chansOf set = [c]) (hk : kindOf kind = some k) (hd : dirOf dir = some d) :
    let m := requestedMotion k d target.toNat ((s.ch c).ms.active.get .travelLength)
    exec (.move tag set kind dir target) s = .next ((s.moveOne c m).2.answered 0x84 tag 0
      ([byteOf c.val, (s.moveOne c m).1.code] ++
        le16 (if k = .goTo then min target.toNat ((s.ch c).ms.active.get .travelLength) else 0))) := by
  dsimp only
  rw [move_eq h hk hd, hc]
  simp only [State.moveAll]
  cases k <;> simp [requestedMotion, Motion.reportedTarget]

end Sys2Proof.Machine
end

