-- ==== Sys2Proof/Laws/Counting.lean ====
section
/-! SUPPORT. What one count does: the decoder's update field by field, the evaluation request, and the count report. -/

namespace Sys2Proof.Machine

theorem Dir.delta_eq (d : Dir) : d.delta = if d = .closing then -1 else 1 := by cases d <;> rfl

/-- A count moves the position by R23. -/
theorem Chan.positionFollows_decodeCount (k : Chan) (ph : HallPhase) : k.PositionFollows (k.decodeCount ph) ph := by
  have hp : (k.decodeCount ph).pd.position =
        ((k.pd.flip ph).countPosition (k.ms.active.get .travelLength) (k.countDir ph)).position ∧
      (k.decodeCount ph).pd.known =
        ((k.pd.flip ph).countPosition (k.ms.active.get .travelLength) (k.countDir ph)).known := by
    unfold Chan.decodeCount Chan.raise Decoder.countDifference Decoder.countDrive Decoder.countRing Decoder.restartTimer
    dsimp only
    constructor <;> (repeat' split) <;> rfl
  have hf := Decoder.flip_fields k.pd ph
  unfold Chan.PositionFollows Chan.countInBounds Chan.counted
  rw [hp.1, hp.2]
  simp only [Decoder.countPosition, hf, Dir.delta_eq, clampInt]
  refine ⟨fun h1 h2 => ?_, fun h1 h2 => ?_, fun h1 => ?_⟩
  · simp [h1, h2]
  · rw [if_pos h1, if_neg h2]; simp
  · simp [h1, min_comm]

/-- What a count leaves of timers, ring, confirmation, watchdog and counters at the decoder (R27, R28, R31, R33, R35). -/
theorem Chan.decodeCount_pd (k : Chan) (ph : HallPhase) :
    let d := (k.decodeCount ph).pd
    let dir := k.countDir ph
    let iv := if k.pd.overflow = 0 then max 1 k.pd.timer else 65535
    d.timer = 0 ∧ d.overflow = 0 ∧ d.travel = k.pd.travel ∧ d.drive = k.pd.drive ∧
      d.difference = max (-32767) (min 32767 (k.pd.difference + if dir = .closing then -1 else 1)) ∧
      d.ring = (if k.commanded = none ∨ k.commanded = some dir then pushLast 4 k.pd.ring iv else []) ∧
      d.confirm = (if k.commanded = none then k.pd.confirm else if k.commanded = some dir then min 2 (k.pd.confirm + 1)
        else if k.pd.confirm = 2 then 2 else 0) ∧
      d.watchdog = (if k.commanded = some dir then some (k.ms.active.get .stallTimeout * 1000) else k.pd.watchdog) := by
  have hf := Decoder.flip_fields k.pd ph
  have hcp := Decoder.countPosition_eq (k.pd.flip ph) (k.ms.active.get .travelLength) (k.countDir ph)
  have hiv : k.pd.interval.1 = if k.pd.overflow = 0 then max 1 k.pd.timer else 65535 := by
    unfold Decoder.interval; split <;> rfl
  have hd : (k.decodeCount ph).pd =
      (((((k.pd.flip ph).countPosition (k.ms.active.get .travelLength) (k.countDir ph)).restartTimer.countRing
        k.commanded (k.countDir ph) k.pd.interval.1).countDrive k.commanded (k.countDir ph)
        (k.ms.active.get .stallTimeout)).countDifference (k.countDir ph)) := by
    unfold Chan.decodeCount; dsimp only; split <;> simp [Chan.raise]
  dsimp only
  rw [hd, hcp, hiv]
  cases hc : k.commanded with
  | none =>
    simp [Decoder.countDifference, Decoder.countDrive, Decoder.countRing, Decoder.restartTimer, hf, Dir.delta_eq, clampInt,
      min_comm]
  | some cd =>
    by_cases h : cd = k.countDir ph <;>
      simp [Decoder.countDifference, Decoder.countDrive, Decoder.countRing, Decoder.restartTimer, hf, Dir.delta_eq,
        clampInt, h, min_comm]

/-- The flags after a count at the decoder: PERIOD_OVERFLOW raised by an overflowed interval of a driving channel (R27). -/
theorem Chan.decodeCount_ee (k : Chan) (ph : HallPhase) : (k.decodeCount ph).ee =
    if k.pd.overflow ≠ 0 ∧ k.ms.state.driving = true then
      { k.ee with sticky := { k.ee.sticky with periodOverflow := true } }
    else k.ee := by
  unfold Chan.decodeCount Decoder.interval
  by_cases h : k.pd.overflow = 0 <;> cases k.ms.state.driving <;> simp [h, Chan.raise, ConditionFlags.raise]

@[simp] theorem Chan.decodeCount_ms (k : Chan) (ph : HallPhase) : (k.decodeCount ph).ms = k.ms := (k.decodeCount_fields ph).1
@[simp] theorem Chan.decodeCount_out (k : Chan) (ph : HallPhase) :
    (k.decodeCount ph).out = k.out := (k.decodeCount_fields ph).2.1
@[simp] theorem Chan.decodeCount_rps (k : Chan) (ph : HallPhase) :
    (k.decodeCount ph).rps = k.rps := (k.decodeCount_fields ph).2.2

/-- The state in which the count report is made: the decoder has been updated and the request handed on (R34). -/
def State.afterDecoder (s : State) (c : ChanId) (ph : HallPhase) : State :=
  let k := s.ch c
  let s1 := s.setCh c (k.decodeCount ph)
  if (k.decodeCount ph).wantsEvaluation (k.countDir ph) then
    { s1 with effort := { s1.effort with requests :=
        s1.effort.requests ++ [(k.decodeCount ph).evalRequest c k.pd.interval.2] } }
  else s1

/-- A count is the decoder's update and then its report (R34). -/
theorem State.count_eq (s : State) (c : ChanId) (ph : HallPhase) : s.count c ph =
    (s.afterDecoder c ph).countReport c ((s.ch c).commanded == some ((s.ch c).countDir ph))
      ((s.ch c).pd.known && !((s.ch c).decodeCount ph).pd.known) (s.ch c).overflowStop := rfl

@[simp] theorem State.ch_afterDecoder_self (s : State) (c : ChanId) (ph : HallPhase) :
    (s.afterDecoder c ph).ch c = (s.ch c).decodeCount ph := by
  unfold State.afterDecoder; dsimp only; split <;> simp

theorem State.ch_afterDecoder (s : State) (c d : ChanId) (ph : HallPhase) (h : d ≠ c) :
    (s.afterDecoder c ph).ch d = s.ch d := by
  unfold State.afterDecoder; dsimp only; split <;> simp [h]

/-- The decoder's part of a count touches the channel and the list of requests alone. -/
theorem State.afterDecoder_eq (s : State) (c : ChanId) (ph : HallPhase) : s.afterDecoder c ph =
    { s.setCh c ((s.ch c).decodeCount ph) with effort := { s.effort with requests := s.effort.requests ++
      (if ((s.ch c).decodeCount ph).wantsEvaluation ((s.ch c).countDir ph) then
        [((s.ch c).decodeCount ph).evalRequest c (s.ch c).pd.interval.2] else []) } } := by
  unfold State.afterDecoder; dsimp only; split <;> simp [State.setCh]

/-! ## Ends of travel and stops at a count -/

/-- Blanking and the entry into TRAVEL, field by field (R148). -/
theorem Chan.countBlanking_eq (k : Chan) (h : k.ms.state = .startup ∨ k.ms.state = .travel) :
    let passed := k.pd.confirm = 2 ∧ k.ms.active.get .startupBlanking ≤ min 64 (k.ms.blanking + 1)
    k.countBlanking = { k with
      ms := { k.ms with
        blanking := min 64 (k.ms.blanking + 1)
        state := if k.ms.state = .travel ∨ passed then .travel else .startup }
      ee := if k.ms.state = .startup ∧ passed then k.ee.emptyWindow else k.ee } := by
  dsimp only
  rcases h with h | h <;> simp only [Chan.countBlanking, h]
  · by_cases hp : k.pd.confirm = 2 ∧ k.ms.active.get .startupBlanking ≤ min 64 (k.ms.blanking + 1)
    · simp [hp, Chan.enterTravel]
    · rw [if_neg (by simpa using hp), if_neg (by simpa using hp), if_neg (by simpa using hp)]
  · simp

/-- R149's table, its rows in order, on a KNOWN position. -/
theorem Chan.travelEnd_of_known (k : Chan) (m : Motion) (hk : k.pd.known = true) :
    let p := k.pd.position
    let l : Int := k.ms.active.get .travelLength
    let soft := m.dir = .closing ∧ m.seeking = false ∧ k.ms.active.get .endMode = 1 ∧
      p ≤ (k.ms.active.get .softClose : Int)
    let target := ∃ q : Nat, (m = .goTo .closing q ∧ p ≤ (q : Int)) ∨ (m = .goTo .opening q ∧ (q : Int) ≤ p)
    let opened := (m = .express .opening ∨ m = .jog .opening) ∧ l ≤ p
    let phase := m = .normalize .openUp ∧ l ≤ p
    (soft → k.travelEnd m = some .closedEnd) ∧ (¬soft → target → k.travelEnd m = some (.idle .targetReached)) ∧
      (opened → k.travelEnd m = some (.idle .completedOpen)) ∧ (phase → k.travelEnd m = some .openDone) ∧
      (¬(soft ∨ target ∨ opened ∨ phase) → k.travelEnd m = none) := by
  dsimp only
  have hs : (m.dir = .closing ∧ k.ms.active.on .endMode = true ∧ (!m.seeking) = true ∧
      k.pd.meets .closing (k.ms.active.get .softClose) = true) ↔
      (m.dir = .closing ∧ m.seeking = false ∧ k.ms.active.get .endMode = 1 ∧
        k.pd.position ≤ (k.ms.active.get .softClose : Int)) := by
    simp [Decoder.meets, ParamSet.on, hk]; tauto
  unfold Chan.travelEnd
  dsimp only
  rw [hk]
  by_cases h : m.dir = .closing ∧ m.seeking = false ∧ k.ms.active.get .endMode = 1 ∧
        k.pd.position ≤ (k.ms.active.get .softClose : Int)
  · rw [if_neg (by simp), if_pos (hs.mpr h)]
    refine ⟨fun _ => rfl, fun h2 => absurd h h2, fun h2 => ?_, fun h2 => ?_, fun h2 => absurd (.inl h) h2⟩
    · rcases h2.1 with rfl | rfl <;> simp [Motion.dir] at h
    · rw [h2.1] at h; simp [Motion.dir, NormPhase.dir] at h
  · rw [if_neg (by simp), if_neg (fun e => h (hs.mp e))]
    refine ⟨fun h2 => absurd h2 h, fun _ => ?_, ?_, ?_, fun h2 => ?_⟩
    · rintro ⟨q, ⟨rfl, hq⟩ | ⟨rfl, hq⟩⟩ <;> simp [Decoder.meets, hk, hq]
    · rintro ⟨rfl | rfl, hq⟩ <;> simp [Decoder.meets, hk, hq]
    · rintro ⟨rfl, hq⟩; simp [Decoder.meets, hk, hq]
    · simp only [not_or] at h2
      obtain ⟨-, ht, ho, hp⟩ := h2
      cases m with
      | jog d => cases d <;> simp_all [Decoder.meets]
      | express d => cases d <;> simp_all [Decoder.meets]
      | goTo d q => cases d <;> simp_all [Decoder.meets]
      | normalize p => cases p <;> simp_all [Decoder.meets]

/-- No end of travel is judged on an UNKNOWN position (R149). -/
theorem Chan.travelEnd_of_unknown (k : Chan) (m : Motion) (hk : k.pd.known = false) : k.travelEnd m = none := by
  simp [Chan.travelEnd, hk]

/-- The blanking of a count changes no end of travel. -/
theorem Chan.travelEnd_countBlanking (k : Chan) (m : Motion) : k.countBlanking.travelEnd m = k.travelEnd m := by
  unfold Chan.countBlanking Chan.enterTravel
  dsimp only
  split <;> rfl

/-- What an end of travel at a count makes of a channel: the closed end is one of End mode SOFT (R149). -/
theorem State.takeEnd_eq (s : State) (c : ChanId) (e : TravelEnd)
    (h : e = .closedEnd → (s.ch c).ms.active.get .endMode = 1) : s.takeEnd c e = s.setCh c (match e with
      | .closedEnd => (s.ch c).completeClosed false false
      | .idle r => (s.ch c).enterDwell (.idle r)
      | .openDone => ((s.ch c).enterDwell .startup).setMotion (.normalize .fill)) := by
  cases e with
  | closedEnd => simp [State.takeEnd, State.closedEnd, ParamSet.on, h rfl]
  | idle r => rfl
  | openDone => rfl

/-- A count report in the commanded direction that stops nothing: blanking, TRAVEL, and the end of travel (R148, R149). -/
theorem State.progress_eq (s : State) (c : ChanId) (m : Motion) (hm : (s.ch c).ms.motion = some m) :
    s.progress c true = match (s.ch c).travelEnd m with
      | some e => (s.setCh c (s.ch c).countBlanking).takeEnd c e
      | none => s.setCh c (s.ch c).countBlanking := by
  have hm2 : (s.ch c).countBlanking.ms.motion = some m := by
    unfold Chan.countBlanking Chan.enterTravel; dsimp only; split <;> exact hm
  have : (s.setCh c (s.ch c).countBlanking).endAtCount c = (s.ch c).travelEnd m := by
    simp [State.endAtCount, hm2, Chan.travelEnd_countBlanking]
  cases h : (s.ch c).travelEnd m <;> simp only [State.progress, if_true, State.modCh_eq, this.trans h]

/-- A report against the commanded direction that stops nothing leaves the channel alone. -/
theorem State.progress_against (s : State) (c : ChanId) : s.progress c false = s := by simp [State.progress]

/-- The end a count has reached is judged as at `travelEnd`. -/
theorem State.endAtCount_eq (s : State) (c : ChanId) (m : Motion) (hm : (s.ch c).ms.motion = some m) :
    s.endAtCount c = (s.ch c).travelEnd m := by simp [State.endAtCount, hm]

/-- A condition stop of a driving channel: the record, then DWELL toward FAULT (R90). -/
theorem State.conditionStop_eq (s : State) (c : ChanId) (x : Condition) (h : (s.ch c).ms.state.driving = true) :
    s.conditionStop c x =
      (s.takeRecordHere c (.condition x)).setCh c ((s.ch c).enterDwell (.fault x)) := by
  simp [State.conditionStop, h]

/-- A record taken: the pool of the state after it, and its notice. -/
theorem State.recordTaken_takeRecord (s s1 t : State) (c : ChanId) (q : IncidentCause) (p : Int) (kn : Bool)
    (hp : s1.pool = s.pool) (hl : s1.link = s.link) (ht : t.pool = (s1.takeRecord c q p kn).pool)
    (hn : t.link = (s1.takeRecord c q p kn).link.serve) : s.RecordTaken t (s1.fillRecord c q p kn) := by
  refine ⟨fun r rest hf => ?_, fun hf => ?_⟩
  · have e := State.takeRecord_cons s1 c q p kn (hp ▸ hf)
    rw [e] at ht hn
    rw [ht]
    dsimp only [State.postIncident] at hn ⊢
    rw [hp]
    refine ⟨rfl, rfl, rfl, by simp, fun i hi => ?_, fun hb => ?_⟩
    · have : ¬ r.val = i.val := fun e => hi (Fin.ext e.symm)
      simp [this]
    · rw [hn]
      have : ∀ l : Link, (l.sending.isSome = true ∨ l.replies ≠ []) → l.serve.notices = l.notices := by
        intro l h
        rcases h with h | h
        · rw [Link.serve_of_sending _ h]
        · exact Link.serve_notices_of_reply _ h
      rw [this _ (by rw [hl]; exact hb)]
      simp [State.fillRecord]
  · have e := State.takeRecord_nil s1 c q p kn (hp ▸ hf)
    rw [e] at ht; rw [ht, hp]

/-! ## What a count report keeps -/

/-- What a count report keeps of a channel; `left` says whether it raised DRIFT. -/
structure Chan.ReportKeeps (k u : Chan) (left : Prop) : Prop where
  pd : u.pd = { k.pd with watchdog := u.pd.watchdog, travel := u.pd.travel }
  wd : u.ms.state.driving = true → u.pd.watchdog = k.pd.watchdog
  sticky : ∀ x, u.ee.sticky.get x = true ↔ k.ee.sticky.get x = true ∨ (x = .drift ∧ left)
  last : u.ee.lastStep = k.ee.lastStep
  taint : u.ms.taint = k.ms.taint

/-- What a count report keeps of the rest of the part. -/
def State.ReportFrame (s t : State) (c : ChanId) : Prop := s.SameOthers t c ∧ t.device = s.device ∧ t.lines = s.lines ∧
    t.supply = s.supply ∧ t.clock = s.clock ∧ t.arbiter = s.arbiter ∧ s.SameLink t ∧ t.effort = s.effort

/-- A record keeps the rest of the part. -/
theorem State.ReportFrame.record (s : State) (c : ChanId) (q p kn) : State.ReportFrame s (s.takeRecord c q p kn) c := by
  simp [State.ReportFrame, State.SameOthers, State.SameLink]

/-- So does an open order. -/
theorem State.ReportFrame.race (s : State) (c : ChanId)  : State.ReportFrame s (s.countRace) c := by
  simp [State.ReportFrame, State.SameOthers, State.SameLink, State.countRace]

/-- So does a change of the channel. -/
theorem State.ReportFrame.set (s t : State) (c : ChanId) (u) (h : State.ReportFrame s t c) :
    State.ReportFrame s (t.setCh c u) c := by
  obtain ⟨h1, h2⟩ := h
  refine ⟨fun d hd => by simp [hd, h1 d hd], ?_⟩
  simpa [State.SameLink] using h2

/-- Two steps that keep it keep it. -/
theorem State.ReportFrame.next (s t u : State) (c : ChanId) (h : State.ReportFrame s t c) (h2 : State.ReportFrame t u c) :
    State.ReportFrame s u c := by
  obtain ⟨a1,a2,a3,a4,a5,a6,a7,a8⟩ := h
  obtain ⟨b1,b2,b3,b4,b5,b6,b7,b8⟩ := h2
  refine ⟨fun d hd => (b1 d hd).trans (a1 d hd), b2.trans a2, b3.trans a3, b4.trans a4, b5.trans a5, b6.trans a6, ?_,
      b8.trans a8⟩
  simp only [State.SameLink] at *; simp [*]

/-- So does the serving of the transmitter. -/
theorem State.ReportFrame.served (s t : State) (c : ChanId) (h : State.ReportFrame s t c) : State.ReportFrame s t.serve c := by
  simpa [State.ReportFrame, State.SameOthers, State.SameLink] using h

/-- The entry into DWELL, as a report. -/
theorem Chan.reportKeeps_dwell (k : Chan) (x) : Chan.ReportKeeps k (k.enterDwell x) False := by
  constructor <;> simp [Chan.enterDwell, ChState.driving]

/-- Blanking, as a report. -/
theorem Chan.reportKeeps_blanking (k : Chan) (h : k.ms.state = .startup ∨ k.ms.state = .travel) :
    Chan.ReportKeeps k k.countBlanking False := by
  rw [Chan.countBlanking_eq k h]; constructor <;> simp <;> (try split) <;> simp [Excess.emptyWindow]

/-- Two report steps, the second raising no DRIFT. -/
theorem Chan.ReportKeeps.next {k u v : Chan} {l} (h : Chan.ReportKeeps k u l) (h2 : Chan.ReportKeeps u v False) (hd :
    v.ms.state.driving = true → u.ms.state.driving = true) : Chan.ReportKeeps k v l := by
  constructor
  · rw [h2.pd, h.pd]
  · intro hv; rw [h2.wd hv, h.wd (hd hv)]
  · intro x; rw [h2.sticky, h.sticky]; simp
  · rw [h2.last, h.last]
  · rw [h2.taint, h.taint]

/-- Raising DRIFT, as a report. -/
theorem Chan.reportKeeps_drift (k : Chan) : Chan.ReportKeeps k (k.raise .drift) True := by
  constructor <;> simp [Chan.raise, ConditionFlags.raise]
  intro x; cases x <;> simp [ConditionFlags.get]

/-- The SOFT closed end, as a report. -/
theorem Chan.reportKeeps_closed (k : Chan) : Chan.ReportKeeps k (k.completeClosed false false) False := by
  have := (k.countClose.adapt_fields false false k.filling)
  constructor <;> simp [Chan.completeClosed, Chan.enterDwell, ChState.driving, this] <;> simp [Chan.countClose]

/-- The end of OPEN, as a report. -/
theorem Chan.reportKeeps_openDone (k : Chan) :
    Chan.ReportKeeps k ((k.enterDwell .startup).setMotion (.normalize .fill)) False := by
  constructor <;> simp [Chan.enterDwell, ChState.driving, Chan.setMotion]

/-- No change, as a report. -/
theorem Chan.reportKeeps_same (k : Chan) : Chan.ReportKeeps k k False := by constructor <;> simp

/-- The condition for DRIFT said otherwise. -/
theorem Chan.ReportKeeps.of_iff {k u : Chan} {l l2 : Prop} (h : Chan.ReportKeeps k u l) (e : l ↔ l2) :
    Chan.ReportKeeps k u l2 := by
  have := propext e; subst this; exact h

/-- Blanking keeps the active set. -/
theorem Chan.countBlanking_active (k : Chan) : k.countBlanking.ms.active = k.ms.active := by
  unfold Chan.countBlanking Chan.enterTravel; dsimp only; split <;> rfl

/-- A closed end at a count is one of End mode SOFT. -/
theorem Chan.soft_of_closedEnd (k : Chan) (m) (h : k.travelEnd m = some .closedEnd) : k.ms.active.get .endMode = 1 := by
  unfold Chan.travelEnd at h
  dsimp only at h
  split at h
  · simp at h
  · split at h
    · rename_i h2; simpa [ParamSet.on] using h2.2.1
    · split at h <;> simp at h

/-- A count report that stops nothing changes the channel alone. -/
theorem State.progress_keeps (S : State) (c : ChanId) (m : Motion) (cmd : Bool) (hst :
    (S.ch c).ms.state = .startup ∨ (S.ch c).ms.state = .travel)
   (hm : (S.ch c).ms.motion = some m) : ∃ u, S.progress c cmd = S.setCh c u ∧ Chan.ReportKeeps (S.ch c) u False := by
  cases cmd with
  | false => exact ⟨S.ch c, by simp [State.progress], Chan.reportKeeps_same _⟩
  | true =>
    rw [State.progress_eq S c m hm]
    have hd : (S.ch c).ms.state.driving = true := by rcases hst with h | h <;> simp [h, ChState.driving]
    cases h : (S.ch c).travelEnd m with
    | none => exact ⟨_, rfl, Chan.reportKeeps_blanking _ hst⟩
    | some e =>
      dsimp only
      rw [State.takeEnd_eq _ _ _ (by rintro rfl; simp [Chan.countBlanking_active, Chan.soft_of_closedEnd _ _ h])]
      simp only [State.ch_setCh_self, State.setCh_setCh]
      have hbd : (S.ch c).countBlanking.ms.state.driving = true := by
        rw [Chan.countBlanking_eq _ hst]; dsimp only; split <;> rfl
      refine ⟨_, rfl, ?_⟩
      cases e with
      | closedEnd => exact Chan.ReportKeeps.next (Chan.reportKeeps_blanking _ hst) (Chan.reportKeeps_closed _) (fun _ => hbd)
      | idle r => exact Chan.ReportKeeps.next (Chan.reportKeeps_blanking _ hst) (Chan.reportKeeps_dwell _ _) (fun _ => hbd)
      | openDone => exact Chan.ReportKeeps.next (Chan.reportKeeps_blanking _ hst) (Chan.reportKeeps_openDone _) (fun _ => hbd)

/-- A count report in STARTUP or TRAVEL: what it keeps (R148, R149, R157). -/
theorem State.runningReport_keeps (S : State) (c : ChanId) (m : Motion) (cmd lost ov : Bool) (hst :
    (S.ch c).ms.state = .startup ∨ (S.ch c).ms.state = .travel)
   (hm : (S.ch c).ms.motion = some m) : ∃ S' u, S.runningReport c cmd lost ov = S'.setCh c u ∧ State.ReportFrame S S' c ∧
       Chan.ReportKeeps (S.ch c) u (lost = true ∧ m.unattendedClose = true) := by
  have hd : (S.ch c).ms.state.driving = true := by rcases hst with h | h <;> simp [h, ChState.driving]
  have fr0 : State.ReportFrame S S c := by simp [State.ReportFrame, State.SameOthers, State.SameLink]
  unfold State.runningReport
  simp only [hm, Option.any_some]
  by_cases hl : lost = true ∧ m.unattendedClose = true
  · simp only [hl, Bool.and_self, if_true, State.modCh_eq]
    have key : ∀ (x : Condition) (S1 : State), State.ReportFrame S S1 c → S1.ch c = (S.ch c).raise .drift → ∃ S' u,
        S1.conditionStop c x = S'.setCh c u ∧ State.ReportFrame S S' c ∧ Chan.ReportKeeps (S.ch c) u (True ∧ True) := by
      intro x S1 h1 h2
      rw [State.conditionStop_eq _ _ _ (by rw [h2]; exact hd)]
      refine ⟨_, _, rfl, State.ReportFrame.next _ _ _ _ h1 (State.ReportFrame.record _ _ _ _ _), ?_⟩
      rw [h2]
      exact Chan.ReportKeeps.of_iff (Chan.ReportKeeps.next (Chan.reportKeeps_drift _) (Chan.reportKeeps_dwell _ _)
          (fun _ => hd)) (by simp)
    cases ov with
    | false => exact key _ _ (State.ReportFrame.set _ _ _ _ fr0) (by simp)
    | true => exact key _ _ (State.ReportFrame.next _ _ _ _ (State.ReportFrame.set _ _ _ _ fr0)
        (State.ReportFrame.race _ _)) (by simp [State.countRace])
  · have hb : (lost && m.unattendedClose) = false := by simpa using hl
    simp only [hb, Bool.false_eq_true, if_false]
    have hiff : False ↔ (lost = true ∧ m.unattendedClose = true) := by simp [hl]
    have pk : ∀ S1 : State, State.ReportFrame S S1 c → S1.ch c = S.ch c → ∃ S' u, S1.progress c cmd = S'.setCh c u ∧
        State.ReportFrame S S' c ∧ Chan.ReportKeeps (S.ch c) u (lost = true ∧ m.unattendedClose = true) := by
      intro S1 h1 h2
      obtain ⟨u, e, h⟩ := State.progress_keeps S1 c m cmd (by rw [h2]; exact hst) (by rw [h2]; exact hm)
      exact ⟨_, _, e, h1, Chan.ReportKeeps.of_iff (h2 ▸ h) hiff⟩
    have ck : ∀ S1 : State, State.ReportFrame S S1 c → S1.ch c = S.ch c → ∃ S' u,
        S1.conditionStop c .periodOverflow = S'.setCh c u ∧ State.ReportFrame S S' c ∧
        Chan.ReportKeeps (S.ch c) u (lost = true ∧ m.unattendedClose = true) := by
      intro S1 h1 h2
      rw [State.conditionStop_eq _ _ _ (by rw [h2]; exact hd)]
      exact ⟨_, _, rfl, State.ReportFrame.next _ _ _ _ h1 (State.ReportFrame.record _ _ _ _ _),
          Chan.ReportKeeps.of_iff (h2 ▸ Chan.reportKeeps_dwell _ _) hiff⟩
    cases ov with
    | false => exact pk _ fr0 rfl
    | true =>
      dsimp only
      split
      · split
        · exact ck _ (State.ReportFrame.race _ _) rfl
        · exact pk _ (State.ReportFrame.race _ _) rfl
      · exact ck _ fr0 rfl

/-- A count report in BACKOFF: what it keeps (R154). -/
theorem State.backoffReport_keeps (S : State) (c : ChanId) (ov : Bool) (hst : (S.ch c).ms.state = .backoff) :
  ∃ S' u, S.backoffReport c ov = S'.setCh c u ∧ State.ReportFrame S S' c ∧ Chan.ReportKeeps (S.ch c) u False := by
  have hd : (S.ch c).ms.state.driving = true := by simp [hst, ChState.driving]
  have fr0 : State.ReportFrame S S c := by simp [State.ReportFrame, State.SameOthers, State.SameLink]
  have ck : ∀ S1 : State, State.ReportFrame S S1 c → S1.ch c = S.ch c → ∃ S' u,
      S1.conditionStop c .periodOverflow = S'.setCh c u ∧ State.ReportFrame S S' c ∧ Chan.ReportKeeps (S.ch c) u False := by
    intro S1 h1 h2
    rw [State.conditionStop_eq _ _ _ (by rw [h2]; exact hd)]
    exact ⟨_, _, rfl, State.ReportFrame.next _ _ _ _ h1 (State.ReportFrame.record _ _ _ _ _), h2 ▸ Chan.reportKeeps_dwell _ _⟩
  unfold State.backoffReport
  split
  · exact ⟨S, S.ch c, by simp, fr0, Chan.reportKeeps_same _⟩
  · exact ⟨_, _, rfl, fr0, Chan.reportKeeps_dwell _ _⟩
  · exact ck _ fr0 rfl
  · split
    · exact ck _ (State.ReportFrame.race _ _) rfl
    · exact ⟨_, _, rfl, State.ReportFrame.race _ _, Chan.reportKeeps_dwell _ _⟩

/-- Which counts hand the evaluator a request (R29). -/
theorem Chan.wantsEvaluation_iff (k : Chan) (ph : HallPhase) (drive : Dir) 
  (h : (k.ms.state = .backoff ∧ drive = .opening) ∨ ((k.ms.state = .startup ∨ k.ms.state = .travel) ∧
      k.ms.motion.map Motion.dir = some drive))
  (hc : k.commanded = some drive) :
  let interval := if k.pd.overflow = 0 then max 1 k.pd.timer else 65535
  let ring := if k.countDir ph = drive then pushLast 4 k.pd.ring interval else []
  (k.decodeCount ph).wantsEvaluation (k.countDir ph) = true ↔
    k.ms.state ≠ .backoff ∧ drive = .closing ∧ k.countDir ph = .closing ∧ k.pd.known = true ∧ k.countInBounds ph ∧
    ring.length = 4 ∧ k.ms.motion ≠ some (.normalize .seek) := by
  have hpd := k.decodeCount_pd ph
  have hpos := k.positionFollows_decodeCount ph
  have hkn : (k.decodeCount ph).pd.known = true ↔ k.pd.known = true ∧ k.countInBounds ph := by
    obtain ⟨h1, h2, h3⟩ := hpos
    by_cases ha : k.pd.known = true
    · by_cases hb : k.countInBounds ph
      · simp [h1 ha hb, ha, hb]
      · simp [h2 ha hb, hb]
    · simp only [Bool.not_eq_true] at ha; simp [h3 ha, ha]
  have hc2 : (k.decodeCount ph).commanded = k.commanded := by unfold Chan.commanded; simp
  simp only [hc] at hpd
  dsimp only
  unfold Chan.wantsEvaluation
  rw [hc2, hc]
  have hring :
      (k.decodeCount ph).pd.ring = (if k.countDir ph = drive then pushLast 4 k.pd.ring (if k.pd.overflow = 0 then max 1 k.pd.timer else 65535) else []) := by
    simp [hpd, eq_comm]
  simp only [Bool.and_eq_true, hkn, hring, Chan.decodeCount_ms]
  clear hpd hring hc hc2 hpos hkn
  have hsk : (!k.ms.motion.any Motion.seeking) = true ↔ k.ms.motion ≠ some (.normalize .seek) := by
    cases k.ms.motion with
    | none => simp
    | some m => cases m <;> simp [Motion.seeking]
  simp only [hsk]
  generalize (if k.countDir ph = drive then pushLast 4 k.pd.ring (if k.pd.overflow = 0 then max 1 k.pd.timer else 65535) else []) = r
  rcases h with ⟨h, rfl⟩ | ⟨h | h, h2⟩ <;> simp [h]
  all_goals tauto

/-- A count loses a KNOWN position at its bounds (R23). -/
theorem Chan.loses_iff (k : Chan) (ph : HallPhase) : (k.pd.known && !(k.decodeCount ph).pd.known) = true ↔
    k.pd.known = true ∧ ¬k.countInBounds ph := by
  obtain ⟨h1, h2, h3⟩ := k.positionFollows_decodeCount ph
  by_cases ha : k.pd.known = true
  · by_cases hb : k.countInBounds ph
    · simp [h1 ha hb, ha, hb]
    · simp [h2 ha hb, ha, hb]
  · simp only [Bool.not_eq_true] at ha; simp [ha]

/-- Which counts ask for a condition stop (R27). -/
theorem Chan.overflowStop_iff (k : Chan) (h : k.ms.state.driving = true) : k.overflowStop = true ↔ k.pd.overflow ≠ 0 ∧
    k.ms.active.get .maskPeriodOverflow ≠ 1 := by
  simp only [Chan.overflowStop, h, Chan.masked, Condition.mask, ParamSet.on, Decoder.interval]
  by_cases h0 : k.pd.overflow = 0 <;> simp [h0]

/-- The position after a count is KNOWN where it was and the bounds hold. -/
theorem Chan.known_decodeCount (k : Chan) (ph : HallPhase) : (k.decodeCount ph).pd.known = true ↔ k.pd.known = true ∧
    k.countInBounds ph := by
  obtain ⟨h1, h2, h3⟩ := k.positionFollows_decodeCount ph
  by_cases ha : k.pd.known = true
  · by_cases hb : k.countInBounds ph
    · simp [h1 ha hb, ha, hb]
    · simp [h2 ha hb, hb]
  · simp only [Bool.not_eq_true] at ha; simp [h3 ha, ha]

/-- A count at the decoder touches the sticky flags alone. -/
theorem Chan.decodeCount_ee_sticky (k : Chan) (ph) :
    (k.decodeCount ph).ee = { k.ee with sticky := (k.decodeCount ph).ee.sticky } := by
  rw [k.decodeCount_ee ph]; split <;> rfl

/-- A condition stop in a count report: DWELL toward FAULT, what stays of the channel, and its record (R90, R177). -/
theorem State.conditionStop_report (s S : State) (c : ChanId) (x : Condition) (K k : Chan) (hS : S.ch c = K) (hp :
    S.pool = s.pool) (hl : S.link = s.link)
  (hd : K.ms.state.driving = true) (hclk : S.clock = s.clock) (hsup : S.supply = s.supply) (hro :
      S.effort.road = s.effort.road) (hho : S.effort.hold = s.effort.hold) (hk : s.ch c = k)
  (hact : K.ms = k.ms) (hout : K.out = k.out) (hrps : K.rps = k.rps) (htr : K.pd.travel = k.pd.travel) :
  let t := (S.conditionStop c x).serve
  (t.ch c).DwellsToward (.fault x) ∧
    ((t.ch c).ms.reversal = k.ms.reversal ∧ (t.ch c).ms.override = k.ms.override ∧
      (t.ch c).ms.marker = k.ms.marker ∧ (t.ch c).pd.travel = k.pd.travel ∧ (t.ch c).rps.cells = k.rps.cells ∧
          (t.ch c).rps.summary = k.rps.summary) ∧
      s.RecordTaken t (s.conditionRecord c x (t.ch c).pd.position (t.ch c).pd.known) := by
  dsimp only
  rw [State.conditionStop_eq _ _ _ (by rw [hS]; exact hd)]
  simp only [State.ch_serve, State.ch_setCh_self, hS]
  refine ⟨Chan.dwellsToward_enterDwell _ _, by simp [Chan.enterDwell, hact, hrps, htr], ?_⟩
  have := State.recordTaken_takeRecord s S ((S.takeRecordHere c (.condition x)).setCh c (K.enterDwell (.fault x))).serve c (.condition x) K.pd.position K.pd.known hp hl (by simp [hS]) (by simp [hS])
  have e : S.fillRecord c (.condition x) K.pd.position K.pd.known = s.conditionRecord c x (K.enterDwell (.fault x)).pd.position (K.enterDwell (.fault x)).pd.known := by
    simp [State.fillRecord, State.conditionRecord, hS, hk, hact, hout, hclk, hsup, hro, hho, IncidentCause.hasEvidence,
        Chan.enterDwell]
  rw [← e]; exact this

end Sys2Proof.Machine
end

