-- ==== Sys2Proof/Laws/Evaluation.lean ====
section
/-! SUPPORT. Spec lemmas of an evaluation: conditions, scratch, window, threshold, decision and verdict. -/

namespace Sys2Proof.Machine

/-- A condition is masked by its mask parameter, NO_REFERENCE also by FILL (R80, R90). -/
theorem EvalInput.masked_iff (i : EvalInput) (x : Condition) : i.masked x = true ↔
    i.active.get x.mask = 1 ∨ (x = .noReference ∧ i.filling = true) := by
  unfold EvalInput.masked ParamSet.on
  cases x <;> simp

/-- A sum from the left. -/
theorem foldl_add_sum : ∀ (l : List Int) (a : Int), l.foldl (· + ·) a = a + l.sum
  | [], a => by simp
  | x :: xs, a => by rw [List.foldl_cons, foldl_add_sum xs, List.sum_cons]; ring

/-- Raising a condition sets its flag and no other (R87). -/
theorem ConditionFlags.get_raise (f : ConditionFlags) (x y : Condition) : (f.raise y).get x = true ↔
    f.get x = true ∨ x = y := by
  cases x <;> cases y <;> simp [ConditionFlags.get, ConditionFlags.raise]

/-- Raising several conditions sets their flags and no other. -/
theorem ConditionFlags.get_foldl_raise (x : Condition) : ∀ (L : List Condition) (f : ConditionFlags),
    (L.foldl ConditionFlags.raise f).get x = true ↔ f.get x = true ∨ x ∈ L
  | [], f => by simp
  | y :: ys, f => by
    rw [List.foldl_cons, ConditionFlags.get_foldl_raise x ys, ConditionFlags.get_raise, List.mem_cons]; tauto

/-- Raising conditions touches the sticky flags alone. -/
theorem Chan.foldl_raise : ∀ (L : List Condition) (k : Chan),
    L.foldl Chan.raise k = { k with ee := { k.ee with sticky := L.foldl ConditionFlags.raise k.ee.sticky } }
  | [], k => rfl
  | y :: ys, k => by rw [List.foldl_cons, List.foldl_cons, Chan.foldl_raise ys]; rfl

/-- What the stages leave of a channel before window and decision (R72, R78, R87, R88, R92). -/
theorem Chan.noteConditions_eq (k : Chan) (ov : Bool) (L : List Condition) : k.noteConditions ov L = { k with
    ee := { k.ee with sticky := L.foldl ConditionFlags.raise k.ee.sticky, lastStep := ov || !L.isEmpty }
    ms := { k.ms with taint := k.ms.taint || (ov || !L.isEmpty) } } := by
  unfold Chan.noteConditions; rw [Chan.foldl_raise]

/-- A measurement touches the scratch alone (R79). -/
theorem Chan.addMeasurement_eq (k : Chan) (cell : Fin 64) (pn : Option Nat) : k.addMeasurement cell pn =
    { k with rps := { k.rps with scratch := (k.addMeasurement cell pn).rps.scratch } } := by
  cases pn <;> rfl

/-- The scratch after a measurement, pair by pair (R79). -/
theorem Chan.addMeasurement_scratch (k : Chan) (cell i : Fin 64) (pn : Option Nat) :
    (k.addMeasurement cell pn).rps.scratch[i] = if i = cell then match pn with
      | some pn => if k.rps.scratch[cell].count < 4095 then
          ⟨k.rps.scratch[cell].sum + pn, k.rps.scratch[cell].count + 1⟩ else k.rps.scratch[cell]
      | none => k.rps.scratch[cell]
    else k.rps.scratch[i] := by
  cases pn with
  | none => unfold Chan.addMeasurement; split <;> simp_all
  | some n =>
    unfold Chan.addMeasurement ScratchPair.add
    by_cases h : i = cell
    · subst h; simp
    · have h' : ¬cell.val = i.val := fun e => h (Fin.ext e.symm)
      simp [h, h']

/-- The taint of a rough road or of a held threshold (R78). -/
theorem State.taintByRoad_eq (s : State) (c : ChanId) (b : Bool) : s.taintByRoad c b = s.setCh c { s.ch c with
    ms := { (s.ch c).ms with
      taint := (s.ch c).ms.taint || (decide (3 ≤ s.effort.road) || (b && s.effort.hold.isSome)) } } := by
  unfold State.taintByRoad
  split
  · rename_i h
    have : (decide (3 ≤ s.effort.road) || (b && s.effort.hold.isSome)) = true := by simpa using h
    rw [this]; simp [Chan.setTaint]
  · rename_i h
    have : (decide (3 ≤ s.effort.road) || (b && s.effort.hold.isSome)) = false := by simpa using h
    rw [this]; simp only [Bool.or_false]; exact (State.setCh_ch s c).symm

/-- The oldest request of a channel, and the list without it. -/
theorem oldestRequest_eq {c : ChanId} {before after : List EvalRequest} {q : EvalRequest}
    (h : ∀ r ∈ before, r.chan ≠ c) (hq : q.chan = c) : oldestRequest c (before ++ q :: after) = some q ∧
      dropRequest c (before ++ q :: after) = before ++ after := by
  induction before with
  | nil => simp [oldestRequest, dropRequest, hq]
  | cons r rs ih =>
    have hr : r.chan ≠ c := h r (by simp)
    obtain ⟨a, b⟩ := ih (fun x hx => h x (by simp [hx]))
    unfold oldestRequest at a ⊢
    simp [dropRequest, hr, b]; simpa using a

/-- An evaluation of a drive the channel is still in is the evaluation of its oldest request (R69). -/
theorem State.evaluation_eq (s : State) (c : ChanId) (q : EvalRequest) (before after : List EvalRequest)
    (h : s.effort.requests = before ++ q :: after) (hb : ∀ r ∈ before, r.chan ≠ c) (hq : q.chan = c)
    (hd : q.drive = (s.ch c).pd.drive)
    (hs : (s.ch c).ms.state = .travel ∨ ((s.ch c).ms.state = .startup ∧ q.inTravel = false)) :
    s.evaluation c = State.evaluate { s with effort := { s.effort with requests := before ++ after } } c q := by
  unfold State.evaluation
  obtain ⟨a, b⟩ := oldestRequest_eq (after := after) hb hq
  rw [h, a, b]
  have : (s.ch c).stillIn q = true := by
    unfold Chan.stillIn; rcases hs with hs | hs <;> simp [hd, hs]
  simp [this]

/-- The window as it stands decides fullness and average, whatever the top pointer. -/
theorem Excess.full_iff (e : Excess) : e.full = true ↔ e.Full := by
  unfold Excess.full Excess.newestFirst Excess.Full
  rcases e with ⟨sl, top, h, su, st, ls, la⟩
  dsimp only
  revert top
  intro top
  simp only [List.all_cons, List.all_nil, Bool.and_true, Bool.and_eq_true, bne_iff_ne]
  constructor
  · intro h i
    have : ∃ j : Fin 8, i = top - j := ⟨top - i, by simp⟩
    obtain ⟨j, hj⟩ := this
    rw [hj]
    obtain ⟨h0, h1, h2, h3, h4, h5, h6, h7⟩ := h
    fin_cases j
    · simpa using h0
    all_goals assumption
  · intro h; exact ⟨h _, h _, h _, h _, h _, h _, h _, h _⟩

/-- The eight slot numbers. -/
theorem finRange_eight : List.finRange 8 = [0, 1, 2, 3, 4, 5, 6, 7] := by decide

/-- The sum of a full window is that of its eight slots, wherever the top pointer stands. -/
theorem Excess.windowSum_of_full (e : Excess) (h : e.Full) :
    e.windowSum = ((List.finRange 8).map (fun i : Fin 8 => (e.slots[i] : Slot).value)).sum := by
  unfold Excess.windowSum Excess.newestFirst
  have hv : ∀ i : Fin 8, (if e.slots[i].tag = .empty then 0 else e.slots[i].value) = e.slots[i].value := fun i => if_neg (h i)
  simp only [List.map_cons, List.map_nil, hv, List.foldl_cons, List.foldl_nil, finRange_eight, List.sum_cons, List.sum_nil]
  have ht : ∀ f : Fin 8 → Int, ∀ top : Fin 8,
      0 + f top + f (top - 1) + f (top - 2) + f (top - 3) + f (top - 4) + f (top - 5) + f (top - 6) + f (top - 7) =
      f 0 + (f 1 + (f 2 + (f 3 + (f 4 + (f 5 + (f 6 + (f 7 + 0))))))) := by
    intro f top
    have key : ∀ a b c d e' g h' : Fin 8, ∀ t : Fin 8, (a, b, c, d, e', g, h') = (t - 1, t - 2, t - 3, t - 4, t - 5, t - 6,
        t - 7) →
        0 + f t + f a + f b + f c + f d + f e' + f g + f h' = f 0 + (f 1 + (f 2 + (f 3 + (f 4 + (f 5 + (f 6 + (f 7 + 0))))))) := by
      intro a b c d e' g h' t ht
      have : ∀ t : Fin 8, (t - 1, t - 2, t - 3, t - 4, t - 5, t - 6, t - 7) = match t with
        | 0 => (7, 6, 5, 4, 3, 2, 1) | 1 => (0, 7, 6, 5, 4, 3, 2) | 2 => (1, 0, 7, 6, 5, 4, 3) | 3 => (2, 1, 0, 7, 6, 5, 4)
        | 4 => (3, 2, 1, 0, 7, 6, 5) | 5 => (4, 3, 2, 1, 0, 7, 6) | 6 => (5, 4, 3, 2, 1, 0, 7) | 7 => (6, 5, 4, 3, 2, 1,
            0) := by decide
      rw [this] at ht
      fin_cases t <;> simp only [Prod.mk.injEq] at ht <;> obtain ⟨rfl, rfl, rfl, rfl, rfl, rfl, rfl⟩ := ht <;> simp <;> ring
    exact key _ _ _ _ _ _ _ top rfl
  exact ht (fun i => (e.slots[i] : Slot).value) e.top

/-- The average of the window by its full tags (R97). -/
theorem Excess.averageIs (e : Excess) : e.AverageIs e.average := by
  unfold Excess.AverageIs Excess.average
  refine ⟨fun h => by rw [if_pos ((Excess.full_iff e).2 h), Excess.windowSum_of_full e h], fun h => ?_⟩
  rw [if_neg (fun h' => h ((Excess.full_iff e).1 h'))]

/-- Writing a lane: the mark, and the hold where three lanes are young (R103). -/
theorem State.writeLane_eq (s : State) (c : ChanId) : s.writeLane c =
    State.setCh { s with effort := { s.effort with
      hold := if 2 ≤ (allChans.filter (s.laneCounts c)).length then
        some (s.clock.ms + BitVec.ofNat 32 s.device.holdTime) else s.effort.hold } } c
      { s.ch c with ee := { (s.ch c).ee with lane := some s.clock.ms } } := by
  unfold State.writeLane
  simp only [State.modCh_eq]
  split <;> rfl

/-- R102 to R104 written out: the lane and the hold, T_eff, the entry b and the verdict. -/
theorem State.decide102_eq (s : State) (c : ChanId) (z : Zone) (a : Int) :
    let k := s.ch c
    let ps := k.ms.active
    let base := zoneThreshold ps z + s.effort.road * ps.get .tRoad + (if k.ms.override = true then ps.get .tOvr else 0)
    let marks := decide ((min 2047 base : Nat) < a)
    let hold := if marks = true ∧ 2 ≤ (allChans.filter (s.laneCounts c)).length then
      some (s.clock.ms + BitVec.ofNat 32 s.device.holdTime) else s.effort.hold
    let teff := min 2047 (base + (if hold.isSome = true then ps.get .tCm else 0))
    let history := (decide ((teff : Int) < a) :: k.ee.history).take 8
    s.decide102 c z a =
      (if ps.get .persistenceCount ≤ ((history.take (ps.get .persistenceDepth)).filter (fun b => b)).length
        then .pinch .pinchEffort else .clear, teff,
        State.setCh { s with effort := { s.effort with hold := hold } } c
          { k with ee := { k.ee with history := history, lane := if marks = true then some s.clock.ms else k.ee.lane } }) := by
  intro k ps base marks hold teff history
  have h0 : threshold ps z s.effort.road k.ms.override false = min 2047 base := by
    unfold threshold thresholdSum; cases hq : k.ms.override <;> simp [base, hq]
  have ht : threshold ps z s.effort.road k.ms.override hold.isSome = teff := by
    unfold threshold thresholdSum
    show min 2047 _ = min 2047 _
    cases hold.isSome <;> cases hq : k.ms.override <;> simp [base, hq]
  have hs1 : (if ((threshold ps z s.effort.road k.ms.override false : Nat) : Int) < a then s.writeLane c else s) =
      State.setCh { s with effort := { s.effort with hold := hold } } c
        { k with ee := { k.ee with lane := if marks = true then some s.clock.ms else k.ee.lane } } := by
    rw [h0]
    by_cases hm : ((min 2047 base : Nat) : Int) < a
    · have hm' : marks = true := by simp only [marks, hm, decide_true]
      rw [if_pos hm, State.writeLane_eq]
      have : hold = if 2 ≤ (allChans.filter (s.laneCounts c)).length then
        some (s.clock.ms + BitVec.ofNat 32 s.device.holdTime) else s.effort.hold := by
        simp only [hold, hm', true_and]
      rw [this, hm']; rfl
    · have hm' : marks = false := by simp only [marks, hm, decide_false]
      rw [if_neg hm]
      have : hold = s.effort.hold := by simp [hold, hm']
      rw [this, hm']
      exact (State.setCh_ch s c).symm
  unfold State.decide102
  dsimp only
  rw [show ((s.ch c).ms.active) = ps from rfl, show (s.ch c).ms.override = k.ms.override from rfl, hs1]
  simp only [State.setCh_effort, ht]
  simp only [State.modCh_eq, State.ch_setCh_self, State.setCh_setCh]
  unfold Excess.shiftHistory Excess.persistent
  dsimp only
  have : ∀ l : List Bool, l.filter (· == true) = l.filter (fun b => b) := by intro l; congr 1; funext b; cases b <;> rfl
  rw [this]
  simp only [decide_eq_true_eq]
  rfl

/-- Stage 6 leaves everything but the hold, the channel's history and its lane. -/
theorem State.stage6_frame (s : State) (c : ChanId) (p : Int) (e : Ending) : ∃ hold history lane,
    (s.stage6 c p e).2.2 = State.setCh { s with effort := { s.effort with hold := hold } } c
      { s.ch c with ee := { (s.ch c).ee with history := history, lane := lane } } := by
  have hid : s = State.setCh { s with effort := { s.effort with hold := s.effort.hold } } c
      { s.ch c with ee := { (s.ch c).ee with history := (s.ch c).ee.history, lane := (s.ch c).ee.lane } } :=
    (State.setCh_ch s c).symm
  unfold State.stage6
  dsimp only
  split
  · exact ⟨_, _, _, hid⟩
  · split
    · split
      · exact ⟨_, _, _, hid⟩
      · split
        · exact ⟨_, _, _, hid⟩
        · exact ⟨_, _, _, congrArg (fun x => x.2.2) (State.decide102_eq s c _ _)⟩
    · exact ⟨_, _, _, congrArg (fun x => x.2.2) (State.decide102_eq s c _ _)⟩
    · exact ⟨_, _, _, hid⟩
    · exact ⟨_, _, _, hid⟩

/-- The FILL phase, as the motion record says it. -/
theorem Chan.filling_eq (k : Chan) : k.filling = decide (k.ms.motion = some (.normalize .fill)) := by
  unfold Chan.filling
  cases k.ms.motion with
  | none => rfl
  | some m => simp [Motion.filling]; rfl

/-- The standing threshold outside the seal zone, written out (R99 to R101). -/
theorem State.standing_eq (s : State) (c : ChanId) (p : Int) (h : zoneAt (s.ch c).ms.active p ≠ .seal) :
    s.standingThreshold c (zoneAt (s.ch c).ms.active p) =
    min 2047 ((if p < ((s.ch c).ms.active.get .zPinch :
        Int) then (s.ch c).ms.active.get .tPinch else (s.ch c).ms.active.get .tUpper) +
    s.effort.road * (s.ch c).ms.active.get .tRoad + (if (s.ch c).ms.override = true then (s.ch c).ms.active.get .tOvr else 0) +
    (if s.effort.hold.isSome = true then (s.ch c).ms.active.get .tCm else 0)) := by
  unfold State.standingThreshold threshold thresholdSum
  rw [Ne, zoneAt_eq_seal] at h
  unfold zoneAt
  rw [if_neg h]
  by_cases h2 : p < ((s.ch c).ms.active.get .zPinch : Int)
  · simp only [if_pos h2]; rfl
  · simp only [if_neg h2]; rfl

/-- A slot is written at the advanced pointer, the others stay (R95). -/
theorem Excess.writeSlot_fields (e : Excess) (sl : Slot) : (e.writeSlot sl).top = e.top + 1 ∧
    (e.writeSlot sl).slots[e.top + 1] = sl ∧ (∀ i : Fin 8, i ≠ e.top + 1 → (e.writeSlot sl).slots[i] = e.slots[i]) ∧
    e.writeSlot sl = { e with top := (e.writeSlot sl).top, slots := (e.writeSlot sl).slots } := by
  refine ⟨rfl, by simp [Excess.writeSlot], fun i hi => ?_, rfl⟩
  have h' : ¬(e.top + 1).val = i.val := fun x => hi (Fin.ext x.symm)
  simp [Excess.writeSlot, h']

/-- A pinch leaves evidence, position, profile and shared state alone, and its slots. -/
theorem State.pinch_frame (s : State) (c : ChanId) (q : IncidentCause) (p : Int) :
    ((s.pinch c q p).ch c).ee = (s.ch c).ee ∧ ((s.pinch c q p).ch c).ms.taint = (s.ch c).ms.taint ∧
    (s.pinch c q p).effort = s.effort ∧ (s.pinch c q p).arbiter = s.arbiter ∧ (s.pinch c q p).device = s.device ∧
    (s.pinch c q p).lines = s.lines ∧ (s.pinch c q p).supply = s.supply ∧ (s.pinch c q p).clock = s.clock ∧
    s.SameLink (s.pinch c q p) ∧ s.SameOthers (s.pinch c q p) c := by
  unfold State.pinch State.overrideStop State.pinchResponse State.dwellIdle
  dsimp only
  split
  · simp [State.SameLink, State.SameOthers, Chan.enterDwell]
    intro d hd; simp [hd]
  · simp +contextual [State.SameLink, State.SameOthers, Chan.enterDwell]

/-- An evaluation: flags and scratch, then the condition stop, or window, decision and the action on the verdict. -/
theorem State.evaluate_eq (s : State) (c : ChanId) (q : EvalRequest) (cell : Fin 64) (o : EvalOutcome) (K : Chan)
    (hcell : cell = cellIndex ((s.ch c).ms.active.get .travelLength) q.position)
    (ho : o = (s.evalInput c q cell).run)
    (hK : K = ((s.ch c).noteConditions q.overflowed o.raised).addMeasurement cell o.pn) :
    (∀ x, o.ending = .stopped x → s.evaluate c q = (s.setCh c K).conditionStop c x) ∧
    ((∀ x, o.ending ≠ .stopped x) →
      s.evaluate c q = match ((s.setCh c K).judge c q cell o.ending).1 with
        | .clear => ((s.setCh c K).judge c q cell o.ending).2
        | .pinch cause => ((s.setCh c K).judge c q cell o.ending).2.pinch c cause q.position) := by
  have e : s.evaluate c q = (match o.ending with
      | .stopped cond => (s.setCh c K).conditionStop c cond
      | ending => match ((s.setCh c K).judge c q cell ending).1 with
        | .clear => ((s.setCh c K).judge c q cell ending).2
        | .pinch cause => ((s.setCh c K).judge c q cell ending).2.pinch c cause q.position) := by
    subst hK; subst ho; subst hcell; rfl
  rw [e]
  refine ⟨fun x h => by rw [h], fun h => ?_⟩
  split
  · rename_i x hx; exact absurd hx (h x)
  · rfl

/-- No evaluation completes with an EMPTY slot. -/
theorem EvalInput.tag_of_complete (i : EvalInput) (x : Int) (tag : SlotTag) (h : i.run.ending = .complete x tag) :
    tag ≠ .empty := by
  unfold EvalInput.run EvalInput.stage1 EvalInput.stage2 EvalInput.stage3 EvalInput.stage4 EvalInput.meet at h
  dsimp only at h
  repeat' split at h
  all_goals first | (exfalso; simp at h; done) | (simp at h; obtain ⟨_, rfl⟩ := h; simp)

end Sys2Proof.Machine
end

