-- ==== Sys2Proof/Laws/Slots.lean ====
section
/-! SUPPORT. Spec lemmas of latches, grant passes, the entry into CUTOFF and the assertion of a line. -/

namespace Sys2Proof.Machine

/-- Behind a frame or a reply the notices stay. -/
theorem Link.serve_notices_of_wait (s : State) (h : s.noticesWait) (l : Link) (h1 : l.sending = s.link.sending) (h2 :
    l.replies = s.link.replies) : l.serve.notices = l.notices := by
  rcases h with h | h
  · rw [Link.serve_of_sending]; rw [h1]; exact h
  · exact Link.serve_notices_of_reply _ (by rw [h2]; exact h)

/-- What judging a latch leaves of a line (R54). -/
theorem State.judgeLatch_line (s : State) (l j : LineId) :
    (s.judgeLatch l).lines[j] = { s.lines[j] with latch := ((s.judgeLatch l).lines[j]).latch } ∧
      (((s.judgeLatch l).lines[j]).latch = true ↔ s.lines[j].latch = true ∧ ¬(j = l ∧ s.lines[j].asserted = false ∧
        ∀ d : ChanId, inSet s.device.maps[j] d = true → (s.ch d).ms.state ≠ .fault)) := by
  unfold State.judgeLatch
  dsimp only
  split
  · rename_i h
    refine ⟨rfl, fun hl => ⟨hl, ?_⟩, fun hl => hl.1⟩
    rintro ⟨rfl, ha, hf⟩
    simp only [ha, Bool.false_or, List.any_eq_true, mem_chansOf, decide_eq_true_eq] at h
    obtain ⟨d, h1, h2⟩ := h
    exact hf d h1 h2
  · rename_i h
    simp only [Bool.or_eq_true, List.any_eq_true, mem_chansOf, decide_eq_true_eq, not_or, not_exists, not_and] at h
    by_cases hj : j = l
    · subst hj
      refine ⟨by simp, ?_⟩
      simp only [Fin.getElem_fin, Vector.getElem_set_self, Bool.false_eq_true, false_iff, not_and]
      intro _ hf
      exact hf trivial (by simpa using h.1) (fun d hd => h.2 d hd)
    · have h' : ¬l.val = j.val := fun e => hj (Fin.ext e.symm)
      simp [hj, h']

/-- What judging the latches of a channel's lines leaves of a line (R54). -/
theorem State.judgeLatchesOf_line (s : State) (c : ChanId) (j : LineId) :
    (s.judgeLatchesOf c).lines[j] = { s.lines[j] with latch := ((s.judgeLatchesOf c).lines[j]).latch } ∧
      (((s.judgeLatchesOf c).lines[j]).latch = true ↔ s.lines[j].latch = true ∧ ¬(inSet s.device.maps[j] c = true ∧
        s.lines[j].asserted = false ∧ ∀ d : ChanId, inSet s.device.maps[j] d = true → (s.ch d).ms.state ≠ .fault)) := by
  have main : ∀ (ls : List LineId) (u : State), 
      let v := ls.foldl (fun s l => if inSet s.device.maps[l] c then s.judgeLatch l else s) u
      v.lines[j] = { u.lines[j] with latch := (v.lines[j]).latch } ∧
      ((v.lines[j]).latch = true ↔ u.lines[j].latch = true ∧ ¬(j ∈ ls ∧ inSet u.device.maps[j] c = true ∧
        u.lines[j].asserted = false ∧ ∀ d : ChanId, inSet u.device.maps[j] d = true → (u.ch d).ms.state ≠ .fault)) := by
    intro ls
    induction ls with
    | nil => intro u; simp
    | cons l ls ih =>
      intro u
      dsimp only [List.foldl_cons]
      split
      · rename_i hm
        obtain ⟨a, b⟩ := ih (u.judgeLatch l)
        obtain ⟨a2, b2⟩ := u.judgeLatch_line l j
        have ha := congrArg FaultLine.asserted a2
        dsimp only at ha a b
        refine ⟨by rw [a]; conv_lhs => rw [a2], ?_⟩
        rw [b, b2, ha, State.judgeLatch_device]
        simp only [State.ch_judgeLatch, List.mem_cons]
        have hmj : j = l → inSet u.device.maps[j] c = true := by rintro rfl; exact hm
        clear ih a a2 b b2 ha
        generalize (∀ d : ChanId, inSet u.device.maps[j] d = true → (u.ch d).ms.state ≠ .fault) = none
        constructor
        · rintro ⟨⟨h1, h2⟩, h3⟩
          exact ⟨h1, fun ⟨h4, h5, h6⟩ => h4.elim (fun e => h2 ⟨e, h6⟩) (fun e => h3 ⟨e, h5, h6⟩)⟩
        · rintro ⟨h1, h2⟩
          exact ⟨⟨h1, fun ⟨e, h6⟩ => h2 ⟨.inl e, hmj e, h6⟩⟩, fun ⟨e, h5, h6⟩ => h2 ⟨.inr e, h5, h6⟩⟩
      · rename_i hm
        obtain ⟨a, b⟩ := ih u
        refine ⟨a, b.trans ?_⟩
        by_cases hj : j = l
        · subst hj; simp only [hm]; simp
        · simp [hj]
  obtain ⟨a, b⟩ := main allLines s
  have : j ∈ allLines := by clear main a b; revert j; decide
  exact ⟨a, by unfold State.judgeLatchesOf; rw [b]; simp [this]⟩

/-- With the supply not NORMAL a channel leaves the arbiter without a grant (R62). -/
theorem State.leaveArbiter_of_not_canGrant (s : State) (c : ChanId) (h : s.supply.state ≠ .normal) :
    s.leaveArbiter c = s.detach c := by
  unfold State.leaveArbiter
  split
  · unfold State.grantPass
    apply State.grantHeads_of_not_canGrant
    unfold State.canGrant
    rw [State.detach_supply]; simp [h]
  · rfl

/-- What the entry into CUTOFF makes of a channel's MOTION_END entry (R64, R162). -/
def Chan.cutEnd (k : Chan) (old : Option MotionEnd) : Option MotionEnd :=
  match k.ms.state with
  | .startup | .travel | .backoff => some ⟨.supplyCutoff, k.pd.position, k.pd.known⟩
  | .dwell => match k.successor with
    | some (.idle r) => some ⟨r, k.pd.position, k.pd.known⟩
    | some (.fault _) => some ⟨.faultStop, k.pd.position, k.pd.known⟩
    | _ => some ⟨.supplyCutoff, k.pd.position, k.pd.known⟩
  | _ => old

/-- One channel at the entry into CUTOFF: the other channels, the supply and the notices. -/
theorem State.cutoffOne_notices (s : State) (c : ChanId) (h : s.supply.state = .cutoff) :
    (s.cutoffOne c).supply = s.supply ∧ (∀ d, d ≠ c → (s.cutoffOne c).ch d = s.ch d) ∧
    (s.cutoffOne c).link = { s.link with notices := { s.link.notices with
      motionEnd := s.link.notices.motionEnd.set c ((s.ch c).cutEnd s.link.notices.motionEnd[c]) } } := by
  have hn : s.supply.state ≠ .normal := by rw [h]; simp
  have hset : ∀ (v : Vector (Option MotionEnd) 8), v.set c v[c] = v := by
    intro v; simp
  have hidle : ∀ (s' : State) r, s'.supply = s.supply → s'.link = s.link → (∀ d, d ≠ c → s'.ch d = s.ch d) →
      (s'.ch c).pd = (s.ch c).pd →
      (s'.endIdle c r).supply = s.supply ∧ (∀ d, d ≠ c → (s'.endIdle c r).ch d = s.ch d) ∧
      (s'.endIdle c r).link = { s.link with notices := { s.link.notices with
      motionEnd := s.link.notices.motionEnd.set c (some ⟨r, (s.ch c).pd.position, (s.ch c).pd.known⟩) } } := by
    intro s' r h1 h2 h3 h4
    unfold State.endIdle
    rw [State.leaveArbiter_of_not_canGrant _ _ (by simp [h1, hn])]
    refine ⟨by simp [h1], fun d hd => by simp [hd, h3], ?_⟩
    simp [State.postMotionEnd, h2, Chan.enterIdle, Chan.rest, h4]
  unfold State.cutoffOne Chan.cutEnd
  cases hst : (s.ch c).ms.state with
  | disabled => simp
  | idle => simp
  | queued => simp
  | fault => simp
  | startup => exact hidle _ _ rfl rfl (fun d hd => by simp [hd]) (by simp [Chan.discardScratch])
  | travel => exact hidle _ _ rfl rfl (fun d hd => by simp [hd]) (by simp [Chan.discardScratch])
  | backoff => exact hidle _ _ rfl rfl (fun d hd => by simp [hd]) (by simp [Chan.discardScratch])
  | dwell =>
    dsimp only
    cases hsu : (s.ch c).successor with
    | none => exact hidle _ _ rfl rfl (fun d hd => rfl) rfl
    | some x =>
      cases x with
      | idle r => exact hidle _ _ rfl rfl (fun d hd => rfl) rfl
      | startup => exact hidle _ _ rfl rfl (fun d hd => rfl) rfl
      | backoff => exact hidle _ _ rfl rfl (fun d hd => rfl) rfl
      | fault y =>
        dsimp only
        unfold State.enterFault
        rw [State.leaveArbiter_of_not_canGrant _ _ (by simp [hn])]
        unfold State.stopToFault
        rw [hst]
        refine ⟨by simp, fun d hd => by simp [hd], ?_⟩
        simp [State.postMotionEnd, Chan.discardScratch, Chan.rest]

/-- The channels at the entry into CUTOFF, one after the other: the notices. -/
theorem State.cutoff_fold : ∀ (cs : List ChanId) (s : State), cs.Nodup → s.supply.state = .cutoff →
    let t := cs.foldl State.cutoffOne s
    t.link = { s.link with notices := { s.link.notices with motionEnd := t.link.notices.motionEnd } } ∧
    ∀ d, t.link.notices.motionEnd[d] = if d ∈ cs then (s.ch d).cutEnd s.link.notices.motionEnd[d] else s.link.notices.motionEnd[d]
  | [], s, _, _ => by simp
  | c :: cs, s, hn, hs => by
    obtain ⟨h1, h2, h3⟩ := State.cutoffOne_notices s c hs
    have hc : c ∉ cs := (List.nodup_cons.1 hn).1
    obtain ⟨i1, i2⟩ := State.cutoff_fold cs (s.cutoffOne c) (List.nodup_cons.1 hn).2 (by rw [h1]; exact hs)
    rw [List.foldl_cons]
    refine ⟨?_, fun d => ?_⟩
    · rw [i1, h3]
    · rw [i2 d, h3]
      by_cases hd : d = c
      · subst hd; simp [hc]
      · have h' : ¬c.val = d.val := fun e => hd (Fin.ext e.symm)
        simp [hd, h2 d hd, h']

/-- A new holder makes one more. -/
theorem length_insertChan (c : ChanId) : ∀ l : List ChanId, c ∉ l → (insertChan c l).length = l.length + 1
  | [], _ => rfl
  | d :: ds, h => by
    unfold insertChan
    split
    · rfl
    · split
      · rename_i e; exact absurd (by simp [e]) h
      · rw [List.length_cons, length_insertChan c ds (fun h' => h (List.mem_cons_of_mem _ h'))]; rfl

/-- A grant pass with the supply NORMAL: as many heads as slots are free enter STARTUP with their motions, in queue order (R62,
R168). -/
theorem State.grantHeads_spec : ∀ (n : Nat) (s : State), s.arbiter.queue.length ≤ n → s.supply.state = .normal →
    (s.arbiter.queue.map QueueEntry.chan).Nodup →
    (∀ e ∈ s.arbiter.queue, e.chan ∉ s.arbiter.holders ∧ (s.ch e.chan).ms.motion.isSome = true) →
    let j := min (s.device.slotCount - s.arbiter.holders.length) s.arbiter.queue.length
    let granted := (s.arbiter.queue.take j).map QueueEntry.chan
    let t := State.grantHeads n s
    t.arbiter.queue = s.arbiter.queue.drop j ∧
    (∀ c, c ∈ t.arbiter.holders ↔ c ∈ s.arbiter.holders ∨ c ∈ granted) ∧
    (∀ c ∈ granted, ∃ m, (s.ch c).ms.motion = some m ∧ t.ch c = (s.ch c).enterStartup s.supply m) ∧
    (∀ c, c ∉ granted → t.ch c = s.ch c)
  | 0, s, hn, _, _, _ => by
    have : s.arbiter.queue = [] := List.length_eq_zero_iff.1 (by omega)
    simp [this, State.grantHeads]
  | n + 1, s, hn, hsu, hnd, hq => by
    intro j granted t
    cases hqe : s.arbiter.queue with
    | nil => simp [t, granted, State.grantHeads, hqe]
    | cons e rest =>
      by_cases hg : s.canGrant = true
      · have hlt : s.arbiter.holders.length < s.device.slotCount := by
          unfold State.canGrant at hg; simp at hg; exact hg.1
        have he := hq e (by simp [hqe])
        obtain ⟨m, hm⟩ := Option.isSome_iff_exists.1 he.2
        set s1 : State := State.modCh { s with arbiter := ⟨insertChan e.chan s.arbiter.holders,
            rest⟩ } e.chan (fun k => k.enterStartup s.supply m) with hs1
        have hgr : ({ s with arbiter := { s.arbiter with queue := rest } } : State).grant e.chan = s1 := by
          unfold State.grant
          have : (({ s with arbiter := { s.arbiter with queue := rest } } : State).ch e.chan).ms.motion = some m := hm
          rw [this]
        have ht : t = State.grantHeads n s1 := by
          show State.grantHeads (n + 1) s = _
          rw [State.grantHeads, hqe]; dsimp only; rw [if_pos hg, hgr]
        rw [hqe] at hnd hn
        rw [List.map_cons, List.nodup_cons] at hnd
        have hne : ∀ x ∈ rest, x.chan ≠ e.chan := fun x hx h => hnd.1 (h ▸ List.mem_map_of_mem hx)
        have ih := State.grantHeads_spec n s1 (by simpa [hs1] using Nat.le_of_succ_le_succ hn) (by simpa [hs1] using hsu)
          (by simpa [hs1] using hnd.2) (by
            intro x hx
            have hx' : x ∈ rest := by simpa [hs1] using hx
            refine ⟨?_, ?_⟩
            · have : s1.arbiter.holders = insertChan e.chan s.arbiter.holders := rfl
              rw [this, mem_insertChan]
              rintro (h | h)
              · exact hne x hx' h
              · exact (hq x (by simp [hqe, hx'])).1 h
            · rw [hs1, State.modCh_eq, State.ch_setCh_ne _ _ (hne x hx')]
              exact (hq x (by simp [hqe, hx'])).2)
        have hj : j = min (s1.device.slotCount - s1.arbiter.holders.length) s1.arbiter.queue.length + 1 := by
          have e1 : s1.device = s.device := rfl
          have e2 : s1.arbiter.holders.length = s.arbiter.holders.length + 1 := length_insertChan _ _ he.1
          have e3 : s1.arbiter.queue = rest := rfl
          rw [e1, e2, e3]
          simp only [j, hqe, List.length_cons]; omega
        obtain ⟨i1, i2, i3, i4⟩ := ih
        have eq1 : s1.arbiter.queue = rest := rfl
        set j' := min (s1.device.slotCount - s1.arbiter.holders.length) s1.arbiter.queue.length with hj'
        have hgd : granted = e.chan :: (rest.take j').map QueueEntry.chan := by
          simp only [granted, hqe, hj, List.take_succ_cons, List.map_cons]
        rw [eq1] at i1 i2 i3 i4
        have hnotin : e.chan ∉ (rest.take j').map QueueEntry.chan := by
          intro h
          obtain ⟨x, hx, hxe⟩ := List.mem_map.1 h
          exact hne x (List.mem_of_mem_take hx) hxe
        rw [ht]
        refine ⟨?_, fun c => ?_, fun c hc => ?_, fun c hc => ?_⟩
        · rw [i1, hj]; rfl
        · rw [i2, hgd]
          have : s1.arbiter.holders = insertChan e.chan s.arbiter.holders := rfl
          rw [this, mem_insertChan, List.mem_cons]; tauto
        · rw [hgd, List.mem_cons] at hc
          by_cases hce : c = e.chan
          · subst hce
            refine ⟨m, hm, ?_⟩
            rw [i4 _ hnotin, hs1]; simp
          · obtain ⟨m', hm', hc'⟩ := i3 c (hc.resolve_left hce)
            have hsc : s1.ch c = s.ch c := by rw [hs1, State.modCh_eq, State.ch_setCh_ne _ _ hce]; rfl
            rw [hsc] at hm' hc'
            exact ⟨m', hm', hc'⟩
        · rw [hgd, List.mem_cons, not_or] at hc
          rw [i4 c hc.2, hs1, State.modCh_eq, State.ch_setCh_ne _ _ hc.1]; rfl
      · have hg' : s.canGrant = false := by simpa using hg
        have hge : s.device.slotCount ≤ s.arbiter.holders.length := by
          unfold State.canGrant at hg'; simp [hsu] at hg'; exact hg'
        have ht : t = s := State.grantHeads_of_not_canGrant _ _ hg'
        have hj : j = 0 := by simp only [j]; omega
        rw [ht, hj, hqe]
        have : granted = [] := by simp only [granted, hj, List.take_zero, List.map_nil]
        rw [this]
        simp

/-- A slot released is followed by a grant pass (R165, R168): with the supply NORMAL as many heads as slots are free then enter
STARTUP with their motions; otherwise none does. -/
theorem State.leaveArbiter_grants (s u : State) (c : ChanId) (hs : s.SlotLaw) (ha : s.ArbiterLaw)
    (hc : (s.ch c).ms.state.holding = true) (h1 : u.arbiter = s.arbiter) (h2 : u.device = s.device)
    (h3 : u.supply = s.supply) (h4 : ∀ d, d ≠ c → u.ch d = s.ch d) :
    let n := if s.supply.state = .normal then
      min (s.device.slotCount + 1 - s.arbiter.holders.length) s.arbiter.queue.length else 0
    let granted := (s.arbiter.queue.take n).map QueueEntry.chan
    let t := u.leaveArbiter c
    c ∉ granted ∧ t.arbiter.queue = s.arbiter.queue.drop n ∧
    (∀ d, d ∈ t.arbiter.holders ↔ (d ∈ s.arbiter.holders ∧ d ≠ c) ∨ d ∈ granted) ∧
    (∀ d ∈ granted, ∃ m, (s.ch d).ms.motion = some m ∧ t.ch d = (s.ch d).enterStartup s.supply m) ∧
    (∀ d, d ≠ c → d ∉ granted → t.ch d = s.ch d) := by
  obtain ⟨a1, a2, a3, a4, _⟩ := ha
  have hch : c ∈ s.arbiter.holders := (a1 c).2 hc
  have hcq : c ∉ s.arbiter.queue.map QueueEntry.chan := by
    intro h; have := (a2 c).1 h; rw [this] at hc; simp [ChState.holding] at hc
  have hq : (u.detach c).arbiter.queue = s.arbiter.queue := by
    unfold State.detach; dsimp only; rw [h1, List.filter_eq_self]
    intro e he
    have : e.chan ≠ c := fun x => hcq (x ▸ List.mem_map_of_mem he)
    simpa using this
  have hnd : s.arbiter.holders.Nodup := hs.1.imp (fun h => Fin.ne_of_lt h)
  have hlen : (u.detach c).arbiter.holders.length = s.arbiter.holders.length - 1 := by
    unfold State.detach; dsimp only
    rw [h1, ← hnd.erase_eq_filter, List.length_erase_of_mem hch]
  have hpos : 1 ≤ s.arbiter.holders.length := List.length_pos_of_mem hch
  have hle : u.leaveArbiter c = (u.detach c).grantPass := by
    unfold State.leaveArbiter; rw [if_pos (by rw [h1]; simpa using hch)]
  intro n granted t
  have hcg : c ∉ granted := fun h => by
    obtain ⟨e, he, rfl⟩ := List.mem_map.1 h
    exact hcq (List.mem_map_of_mem (List.mem_of_mem_take he))
  by_cases hsu : s.supply.state = .normal
  · obtain ⟨k1, k2, k3, k4⟩ := State.grantHeads_spec (u.detach c).arbiter.queue.length (u.detach c) (le_refl _)
      (by rw [State.detach_supply, h3]; exact hsu) (by rw [hq]; exact a3) (by
        rw [hq]
        intro e he
        have hqu := (a2 e.chan).1 (List.mem_map_of_mem he)
        have hec : e.chan ≠ c := fun x => hcq (x ▸ List.mem_map_of_mem he)
        rw [State.mem_detach_holders, h1, State.ch_detach, h4 _ hec]
        refine ⟨fun h => ?_, ?_⟩
        · have := (a1 e.chan).1 h.1; rw [hqu] at this; simp [ChState.holding] at this
        · have := a4 e he
          cases hm : (s.ch e.chan).ms.motion with
          | none => rw [hm] at this; simp at this
          | some m => rfl)
    have hn : n = min ((u.detach c).device.slotCount - (u.detach c).arbiter.holders.length) (u.detach c).arbiter.queue.length := by
      simp only [n, if_pos hsu]; rw [hlen, hq, State.detach_device, h2]; omega
    rw [← hn, hq] at k1 k2 k3 k4
    have ht : t = State.grantHeads s.arbiter.queue.length (u.detach c) := hle.trans (by rw [State.grantPass, hq])
    have hk : ∀ d, d ∈ granted → (u.detach c).ch d = s.ch d := fun d hd =>
      h4 d (fun e => hcg (e ▸ hd))
    refine ⟨hcg, by rw [ht]; exact k1, fun d => ?_, fun d hd => ?_, fun d hd hg => ?_⟩
    · rw [ht, k2, State.mem_detach_holders, h1]
    · obtain ⟨m, hm, hd'⟩ := k3 d hd
      rw [hk d hd] at hm hd'
      exact ⟨m, hm, by rw [ht, hd', State.detach_supply, h3]⟩
    · rw [ht, k4 d hg]; exact h4 d hd
  · have hn : n = 0 := by simp only [n, if_neg hsu]
    have hg : granted = [] := by simp only [granted, hn, List.take_zero, List.map_nil]
    have ht : t = u.detach c := State.leaveArbiter_of_not_canGrant u c (by rw [h3]; exact hsu)
    rw [hg, hn, ht]
    refine ⟨by simp, by rw [hq]; rfl, fun d => ?_, by simp, fun d hd _ => ?_⟩
    · rw [State.mem_detach_holders, h1]; simp
    · rw [State.ch_detach]; exact h4 d hd

/-- An item put into its place by key is one more. -/
theorem insertByKey_perm {α : Type} (key : α → Nat) (x : α) : ∀ l, (insertByKey key x l).Perm (x :: l)
  | [] => .refl _
  | y :: ys => by
    unfold insertByKey; split
    · exact .refl _
    · exact ((insertByKey_perm key x ys).cons y).trans (.swap x y ys)

/-- Ordering by a key permutes. -/
theorem orderByKey_perm {α : Type} (key : α → Nat) : ∀ l, (orderByKey key l).Perm l
  | [] => .refl _
  | x :: xs => (insertByKey_perm key x _).trans ((orderByKey_perm key xs).cons x)

/-- What one told channel does to pool and notices. -/
theorem State.assertOn_records (s : State) (l : LineId) (c : ChanId) (h : s.assertable c = true) :
    let t := s.assertOn l c
    (∀ r rest, s.pool.free = r :: rest → t.pool = { s.pool with
        records := s.pool.records.set r (s.bridgeRecord l c), free := rest, waiting := s.pool.waiting ++ [r] } ∧
      t.link.notices.incident = s.link.notices.incident.set c (some r)) ∧
    (s.pool.free = [] → t.pool = { s.pool with lost := min 255 (s.pool.lost + 1) } ∧
      t.link.notices.incident = s.link.notices.incident) ∧
    t.link.notices.motionEnd = (if (s.ch c).ms.state = .idle then s.link.notices.motionEnd
      else s.link.notices.motionEnd.set c (some ⟨.faultStop, (s.ch c).pd.position, (s.ch c).pd.known⟩)) ∧
    t.link.notices.faultLine = s.link.notices.faultLine ∧ t.link.notices.supply = s.link.notices.supply ∧
    t.link.sending = s.link.sending ∧ t.link.replies = s.link.replies := by
  intro t
  have ht : t = _ := State.assertOn_eq s l c h
  set u := s.takeRecordHere c (.bridge l) with hu
  have huc : u.ch c = s.ch c := by rw [hu, State.takeRecordHere_eq, State.ch_takeRecord]
  have hstate : (s.ch c).ms.state ≠ .disabled ∧ (s.ch c).ms.state ≠ .fault := by
    unfold State.assertable at h; constructor <;> (intro e; rw [e] at h; simp at h)
  have hlink : t.link = { u.link with
      notices := { u.link.notices with
        motionEnd := if (s.ch c).ms.state = .idle then u.link.notices.motionEnd
          else u.link.notices.motionEnd.set c (some ⟨.faultStop, (s.ch c).pd.position, (s.ch c).pd.known⟩) } } := by
    rw [ht, State.detach_link]
    unfold State.stopToFault
    rw [huc]
    cases hst :
        (s.ch c).ms.state <;> first | exact absurd hst hstate.1 | exact absurd hst hstate.2 | simp [State.postMotionEnd,
        huc, Chan.discardScratch, Chan.rest]
  have hpool : t.pool = u.pool := by rw [ht]; simp
  have hrec : s.fillRecord c (.bridge l) (s.ch c).pd.position (s.ch c).pd.known = s.bridgeRecord l c := rfl
  have hum : u.link.notices.motionEnd = s.link.notices.motionEnd ∧ u.link.notices.faultLine = s.link.notices.faultLine ∧
      u.link.notices.supply = s.link.notices.supply ∧ u.link.sending = s.link.sending ∧ u.link.replies = s.link.replies := by
    rw [hu]; unfold State.takeRecordHere State.takeRecord; split <;> exact ⟨rfl, rfl, rfl, rfl, rfl⟩
  refine ⟨fun r rest hf => ?_, fun hf => ?_, ?_, ?_, ?_, ?_, ?_⟩
  · have := State.takeRecord_cons s c (.bridge l) (s.ch c).pd.position (s.ch c).pd.known hf
    rw [hpool, hlink, hu, State.takeRecordHere_eq, this, hrec]
    exact ⟨rfl, rfl⟩
  · have := State.takeRecord_nil s c (.bridge l) (s.ch c).pd.position (s.ch c).pd.known hf
    rw [hpool, hlink, hu, State.takeRecordHere_eq, this]
    exact ⟨rfl, rfl⟩
  · rw [hlink]; dsimp only; rw [hum.1]
  · rw [hlink]; exact hum.2.1
  · rw [hlink]; exact hum.2.2.1
  · rw [hlink]; exact hum.2.2.2.1
  · rw [hlink]; exact hum.2.2.2.2

/-- What the channels told of an assertion, one after the other, do to pool and notices. -/
theorem State.assertOn_fold (l : LineId) : ∀ (cs : List ChanId) (s : State), cs.Nodup → s.pool.free.Nodup → s.pool.lost ≤ 255 →
    (∀ c ∈ cs, s.assertable c = true) →
    let t := cs.foldl (fun s c => s.assertOn l c) s
    let ps := s.pool.free.zip cs
    t.pool.free = s.pool.free.drop cs.length ∧ t.pool.waiting = s.pool.waiting ++ s.pool.free.take cs.length ∧
    t.pool.lost = (if cs.length ≤ s.pool.free.length then s.pool.lost
      else min 255 (s.pool.lost + (cs.length - s.pool.free.length))) ∧
    (∀ r, r ∉ s.pool.free.take cs.length → t.pool.records[r] = s.pool.records[r]) ∧
    (∀ p ∈ ps, t.pool.records[p.1] = s.bridgeRecord l p.2 ∧ t.link.notices.incident[p.2] = some p.1) ∧
    (∀ c, (∀ p ∈ ps, p.2 ≠ c) → t.link.notices.incident[c] = s.link.notices.incident[c]) ∧
    (∀ c, t.link.notices.motionEnd[c] = if c ∈ cs ∧ (s.ch c).ms.state ≠ .idle then
      some ⟨.faultStop, (s.ch c).pd.position, (s.ch c).pd.known⟩ else s.link.notices.motionEnd[c]) ∧
    t.link.notices.faultLine = s.link.notices.faultLine ∧ t.link.notices.supply = s.link.notices.supply ∧
    t.link.sending = s.link.sending ∧ t.link.replies = s.link.replies
  | [], s, _, _, hl, _ => by simp
  | c :: cs, s, hn, hf, hl, ha => by
    intro t ps
    set s1 := s.assertOn l c with hs1
    obtain ⟨r1, r2, r3, r4, r5, r6, r7⟩ := State.assertOn_records s l c (ha c (by simp))
    rw [← hs1] at r1 r2 r3 r4 r5 r6 r7
    have hcn := List.nodup_cons.1 hn
    have hch : ∀ d, d ≠ c → s1.ch d = s.ch d := fun d hd => State.ch_assertOn s l c d hd
    have hbr : ∀ d, d ≠ c → s1.bridgeRecord l d = s.bridgeRecord l d := by
      intro d hd; unfold State.bridgeRecord; rw [hch d hd, hs1, State.assertOn_clock, State.assertOn_supply, State.assertOn_effort]
    have ht : t = cs.foldl (fun s c => s.assertOn l c) s1 := rfl
    cases hfe : s.pool.free with
    | nil =>
      obtain ⟨p1, p2⟩ := r2 hfe
      obtain ⟨i1, i2, i3, i4, i5, i6, i7, i8, i9, i10, i11⟩ := State.assertOn_fold l cs s1 hcn.2 (by rw [p1]; exact hf)
          (by rw [p1]; simp)
        (by intro d hd; have hdc : d ≠ c := fun e => hcn.1 (e ▸ hd); have := ha d (List.mem_cons_of_mem _ hd); unfold State.assertable at this ⊢; rw [hch d hdc]; exact this)
      have hfe1 : s1.pool.free = [] := by rw [p1]; exact hfe
      rw [hfe1] at i1 i2 i3 i4 i5 i6
      have hps : ps = [] := by simp [ps, hfe]
      refine ⟨?_, ?_, ?_, ?_, ?_, ?_, ?_, ?_, ?_, ?_, ?_⟩
      · rw [ht, i1]; simp
      · rw [ht, i2, p1]; simp
      · have e1 : s1.pool.lost = min 255 (s.pool.lost + 1) := by rw [p1]
        rw [ht, i3, e1]; simp only [List.length_nil, List.length_cons]; split <;> split <;> omega
      · intro r hr; rw [ht, i4 r (by simp), p1]
      · rw [hps]; simp
      · intro d _; rw [ht, i6 d (by simp), p2]
      · intro d; rw [ht, i7 d, r3]
        by_cases hdc : d = c
        · subst hdc
          by_cases hid : (s.ch d).ms.state = .idle
          · simp [hcn.1, hid]
          · simp [hcn.1, hid]
        · have h' : ¬c.val = d.val := fun e => hdc (Fin.ext e.symm)
          rw [hch d hdc]
          by_cases hid : (s.ch c).ms.state = .idle
          · simp [hdc, hid]
          · simp [hdc, hid, h']
      · rw [ht, i8, r4]
      · rw [ht, i9, r5]
      · rw [ht, i10, r6]
      · rw [ht, i11, r7]
    | cons r rest =>
      obtain ⟨p1, p2⟩ := r1 r rest hfe
      rw [hfe] at hf
      have hfn := List.nodup_cons.1 hf
      obtain ⟨i1, i2, i3, i4, i5, i6, i7, i8, i9, i10, i11⟩ := State.assertOn_fold l cs s1 hcn.2 (by rw [p1]; exact hfn.2)
          (by rw [p1]; exact hl)
        (by intro d hd; have hdc : d ≠ c := fun e => hcn.1 (e ▸ hd); have := ha d (List.mem_cons_of_mem _ hd); unfold State.assertable at this ⊢; rw [hch d hdc]; exact this)
      have hfe1 : s1.pool.free = rest := by rw [p1]
      rw [hfe1] at i1 i2 i3 i4 i5 i6
      have hps : ps = (r, c) :: rest.zip cs := by simp [ps, hfe]
      have hz1 : ∀ p ∈ rest.zip cs, p.1 ≠ r ∧ p.2 ≠ c := by
        intro p hp
        obtain ⟨a, b⟩ := List.of_mem_zip (a := p.1) (b := p.2) (by simpa using hp)
        exact ⟨fun e => hfn.1 (e ▸ a), fun e => hcn.1 (e ▸ b)⟩
      refine ⟨?_, ?_, ?_, ?_, ?_, ?_, ?_, ?_, ?_, ?_, ?_⟩
      · rw [ht, i1]; simp
      · rw [ht, i2, p1]; simp
      · rw [ht, i3, p1]; simp
      · intro x hx
        rw [List.length_cons, List.take_succ_cons, List.mem_cons, not_or] at hx
        rw [ht, i4 x hx.2, p1]
        have h' : ¬r.val = x.val := fun e => hx.1 (Fin.ext e.symm)
        simp [h']
      · intro p hp
        rw [hps, List.mem_cons] at hp
        rcases hp with rfl | hp
        · rw [ht]
          refine ⟨?_, ?_⟩
          · rw [i4 r (fun h => hfn.1 (List.mem_of_mem_take h)), p1]; simp
          · rw [i6 c (fun p hp => (hz1 p hp).2), p2]; simp
        · rw [ht]
          rw [(i5 p hp).1, (i5 p hp).2, hbr _ (hz1 p hp).2]; exact ⟨rfl, rfl⟩
      · intro d hd
        rw [hps] at hd
        have hdc : d ≠ c := fun e => hd (r, c) (by simp) e.symm
        rw [ht, i6 d (fun p hp => hd p (List.mem_cons_of_mem _ hp)), p2]
        have h' : ¬c.val = d.val := fun e => hdc (Fin.ext e.symm)
        simp [h']
      · intro d; rw [ht, i7 d, r3]
        by_cases hdc : d = c
        · subst hdc
          by_cases hid : (s.ch d).ms.state = .idle
          · simp [hcn.1, hid]
          · simp [hcn.1, hid]
        · have h' : ¬c.val = d.val := fun e => hdc (Fin.ext e.symm)
          rw [hch d hdc]
          by_cases hid : (s.ch c).ms.state = .idle
          · simp [hdc, hid]
          · simp [hdc, hid, h']
      · rw [ht, i8, r4]
      · rw [ht, i9, r5]
      · rw [ht, i10, r6]
      · rw [ht, i11, r7]

/-- An assertion acts on the channels that are enabled and not in FAULT (R52). -/
theorem State.assertable_iff (s : State) (c : ChanId) : s.assertable c = true ↔ (s.ch c).ms.state ≠ .disabled ∧
    (s.ch c).ms.state ≠ .fault := by
  unfold State.assertable; cases (s.ch c).ms.state <;> simp

/-- The channels of a set that an assertion acts on. -/
theorem State.faultable_eq (s : State) (m : ChanSet) : (chansOf m).filter s.assertable = s.faultable m := by
  unfold State.faultable
  congr 1; funext c
  rw [Bool.eq_iff_iff, State.assertable_iff]; simp

/-- The channels an assertion acts on each take a record and post their notices, as far as the pool goes. -/
theorem State.assertOnAll_records (s : State) (l : LineId) (m : ChanSet) (hp : s.pool.Partitioned) :
    let t := s.assertOnAll l (chansOf m)
    s.BridgeRecordsTaken t l (s.faultable m) ∧ s.BridgeNoticesPosted t (s.faultable m) ∧
    t.link.notices.faultLine = s.link.notices.faultLine ∧ t.link.notices.supply = s.link.notices.supply ∧
    t.link.sending = s.link.sending ∧ t.link.replies = s.link.replies := by
  intro t
  set cs := s.faultable m with hcs
  set os := s.openOrder cs with hos
  have hperm : os.Perm cs := orderByKey_perm _ _
  have hcn : cs.Nodup := by
    have h1 : allChans.Nodup := by decide
    rw [hcs]; unfold State.faultable chansOf; exact (h1.filter _).filter _
  have hon : os.Nodup := hperm.nodup_iff.2 hcn
  have hfn : s.pool.free.Nodup := by
    have : (s.pool.free ++ s.pool.waiting).Nodup := hp.1.nodup_iff.2 (by decide)
    exact (List.nodup_append.1 this).1
  have hlen : os.length = cs.length := hperm.length_eq
  obtain ⟨f1, f2, f3, f4, f5, f6, f7, f8, f9, f10, f11⟩ := State.assertOn_fold l os s.countRace hon hfn hp.2 (by
    intro c hc
    have : c ∈ cs := hperm.mem_iff.1 hc
    rw [hcs, ← State.faultable_eq] at this
    exact (List.mem_filter.1 this).2)
  set u := os.foldl (fun s c => s.assertOn l c) s.countRace with hu
  have htp : t.pool = u.pool ∧ t.link = u.link := by
    show (s.assertOnAll l (chansOf m)).pool = _ ∧ (s.assertOnAll l (chansOf m)).link = _
    unfold State.assertOnAll
    rw [State.faultable_eq]
    dsimp only
    split
    · simp [State.grantPass]; exact ⟨rfl, rfl⟩
    · exact ⟨rfl, rfl⟩
  have hbr : ∀ c, s.countRace.bridgeRecord l c = s.bridgeRecord l c := fun c => rfl
  simp only [State.countRace_pool, State.countRace_link, hbr, State.ch_countRace, hlen] at f1 f2 f3 f4 f5 f6 f7 f8 f9 f10 f11
  rw [← htp.1] at f1 f2 f3 f4 f5
  rw [← htp.2] at f5 f6 f7 f8 f9 f10 f11
  have hbc : ∀ c, (s.bridgeRecord l c).chan = c := fun c => rfl
  have hzip : ∀ r ∈ s.pool.free.take cs.length, ∃ c, (r, c) ∈ s.pool.free.zip os := by
    intro r hr
    obtain ⟨i, hi, rfl⟩ := List.getElem_of_mem hr
    rw [List.length_take] at hi
    have hi2 : i < os.length := by omega
    refine ⟨os[i], ?_⟩
    rw [List.getElem_take]
    have hl : i < (s.pool.free.zip os).length := by rw [List.length_zip]; omega
    have := List.getElem_mem hl
    rwa [List.getElem_zip] at this
  have hzip2 : cs.length ≤ s.pool.free.length → ∀ c ∈ cs, ∃ r, (r, c) ∈ s.pool.free.zip os := by
    intro hle c hc
    obtain ⟨i, hi, rfl⟩ := List.getElem_of_mem (hperm.mem_iff.2 hc)
    have hl : i < (s.pool.free.zip os).length := by rw [List.length_zip]; omega
    have := List.getElem_mem hl
    rw [List.getElem_zip] at this
    exact ⟨_, this⟩
  have htk : ∀ p ∈ s.pool.free.zip os, p.1 ∈ s.pool.free.take cs.length := by
    intro p hp
    obtain ⟨i, hi, rfl⟩ := List.getElem_of_mem hp
    rw [List.getElem_zip]
    rw [List.length_zip] at hi
    have : i < (s.pool.free.take cs.length).length := by rw [List.length_take]; omega
    have h2 := List.getElem_mem this
    rwa [List.getElem_take] at h2
  refine ⟨⟨f1, f2, f3, f4, ?_, ?_, ?_⟩, ⟨?_, ?_, ?_, ?_⟩, f8, f9, f10, f11⟩
  · intro r hr
    obtain ⟨c, hc⟩ := hzip r hr
    exact ⟨c, hperm.mem_iff.1 (List.of_mem_zip hc).2, (f5 _ hc).1⟩
  · have : (s.pool.free.take cs.length).map (fun r => (t.pool.records[r]).chan) = os.take s.pool.free.length := by
      apply List.ext_getElem
      · simp; omega
      · intro i h1 h2
        rw [List.getElem_map, List.getElem_take, List.getElem_take]
        rw [List.length_map, List.length_take] at h1
        have hl : i < (s.pool.free.zip os).length := by rw [List.length_zip]; omega
        have hm := List.getElem_mem hl
        rw [List.getElem_zip] at hm
        rw [(f5 _ hm).1]; rfl
    rw [this]
    exact hon.sublist (List.take_sublist _ _)
  · intro hle c hc
    obtain ⟨r, hr⟩ := hzip2 hle c hc
    exact ⟨r, htk _ hr, (f5 _ hr).1⟩
  · intro c hc
    rw [f7 c]
    by_cases hid : (s.ch c).ms.state = .idle
    · simp [hid]
    · simp [hid, hperm.mem_iff.2 hc]
  · intro c hc
    have hc' : c ∉ os := fun h => hc (hperm.mem_iff.1 h)
    refine ⟨by rw [f7 c]; simp [hc'], f6 c (fun p hp e => hc' (e ▸ (List.of_mem_zip (a := p.1) (b := p.2)
        (by simpa using hp)).2))⟩
  · intro c hc r hr he
    obtain ⟨d, hd⟩ := hzip r hr
    have h1 := f5 _ hd
    have : d = c := by rw [← he, h1.1]; rfl
    subst this
    exact h1.2
  · intro c hc hno
    apply f6
    intro p hp e
    exact hno p.1 (htk p hp) (by rw [(f5 p hp).1, ← e]; rfl)

/-- The channels of one set and not of another. -/
theorem chansOf_diff (m o : ChanSet) : (chansOf m).filter (fun c => !inSet o c) = chansOf (m &&& ~~~o) := by
  unfold chansOf
  rw [List.filter_filter]
  congr 1; funext c
  unfold inSet
  have : c.val < 8 := c.isLt
  simp [this, Bool.and_comm]

end Sys2Proof.Machine
end

