-- ==== Sys2Proof/Laws/Resets.lean ====
section
/-! SUPPORT. What the first fault line samples after a reset do: the channels they fault, the records and the notices. -/

namespace Sys2Proof.Machine

/-- From a part at rest, the channels of a list have been told one after the other of a line that maps them: each is in FAULT
by that line, with the record of its place in the list, and all else stands (R52, R58, R182). -/
structure FirstFaults (b u : State) (told : List (ChanId × LineId)) : Prop where
  nodup : (told.map Prod.fst).Nodup
  hit : ∀ p ∈ told, u.ch p.1 = (b.ch p.1).discardScratch.rest .fault (.bridge p.2)
  rest : ∀ c, c ∉ told.map Prod.fst → u.ch c = b.ch c
  free : u.pool.free = allFree.drop told.length
  waiting : u.pool.waiting = allFree.take told.length
  lost : u.pool.lost = b.pool.lost
  record : ∀ (i : RecId) p, told[i.val]? = some p →
    u.pool.records[i] = b.bridgeRecord p.2 p.1 ∧ u.link.notices.incident[p.1] = some i
  blank : ∀ i : RecId, told.length ≤ i.val → u.pool.records[i] = b.pool.records[i]
  incident : ∀ c, c ∉ told.map Prod.fst → u.link.notices.incident[c] = b.link.notices.incident[c]
  link : u.link = { b.link with notices := { b.link.notices with
    incident := u.link.notices.incident, faultLine := u.link.notices.faultLine } }
  device : u.device = b.device
  supply : u.supply = b.supply
  effort : u.effort = b.effort
  clock : u.clock = b.clock
  arbiter : u.arbiter = b.arbiter

/-- At most eight channels are told. -/
theorem FirstFaults.length_le {b u : State} {told : List (ChanId × LineId)} (h : FirstFaults b u told) : told.length ≤ 8 := by
  have := h.nodup.length_le_card
  simpa using this

/-- One more IDLE channel is told. -/
theorem FirstFaults.assertOn {b u : State} {told : List (ChanId × LineId)} (h : FirstFaults b u told) (l : LineId) (c : ChanId)
    (hid : (b.ch c).ms.state = .idle) (hc : c ∉ told.map Prod.fst) (hb : b.arbiter = ⟨[], []⟩) :
    FirstFaults b (u.assertOn l c) (told ++ [(c, l)]) := by
  have hcu : u.ch c = b.ch c := h.rest c hc
  have ha : u.assertable c = true := by rw [State.assertable_iff, hcu, hid]; simp
  have hlen := h.length_le
  have hlt : told.length < 16 := by omega
  have hfree : u.pool.free = ⟨told.length, hlt⟩ :: allFree.drop (told.length + 1) := by
    rw [h.free]
    have : ∀ n : Fin 16, allFree.drop n.val = n :: allFree.drop (n.val + 1) := by decide
    exact this ⟨told.length, hlt⟩
  obtain ⟨r1, _, r3, r4, r5, r6, r7⟩ := State.assertOn_records u l c ha
  obtain ⟨p1, p2⟩ := r1 _ _ hfree
  rw [hcu, hid] at r3
  have hbr : u.bridgeRecord l c = b.bridgeRecord l c := by
    unfold State.bridgeRecord; rw [hcu, h.clock, h.supply, h.effort]
  have hk : (u.assertOn l c).ch c = (b.ch c).discardScratch.rest .fault (.bridge l) := by
    rw [State.ch_assertOn_self u l c ha, hcu]
  have hfst : ∀ d, d ∉ (told ++ [(c, l)]).map Prod.fst ↔ d ∉ told.map Prod.fst ∧ d ≠ c := by
    intro d; simp
  have hne : ∀ d, d ≠ c → ¬c.val = d.val := fun d hd e => hd (Fin.ext e.symm)
  refine ⟨?_, ?_, ?_, ?_, ?_, ?_, ?_, ?_, ?_, ?_, ?_, ?_, ?_, ?_, ?_⟩
  · rw [List.map_append, List.nodup_append]
    refine ⟨h.nodup, by simp, ?_⟩
    intro x hx y hy e
    simp only [List.map_cons, List.map_nil, List.mem_singleton] at hy
    exact hc (hy ▸ e ▸ hx)
  · intro p hp
    rcases List.mem_append.1 hp with hp | hp
    · have : p.1 ≠ c := fun e => hc (e ▸ List.mem_map_of_mem hp)
      rw [State.ch_assertOn u l c _ this, h.hit p hp]
    · rw [List.mem_singleton] at hp; subst hp; exact hk
  · intro d hd
    rw [hfst] at hd
    rw [State.ch_assertOn u l c d hd.2, h.rest d hd.1]
  · rw [p1]; simp
  · rw [p1, h.waiting]
    have : ∀ n : Fin 16, allFree.take n.val ++ [n] = allFree.take (n.val + 1) := by decide
    simpa using this ⟨told.length, hlt⟩
  · rw [p1]; exact h.lost
  · intro i p hp
    by_cases hi : i.val < told.length
    · rw [List.getElem?_append_left hi] at hp
      have hpc : p.1 ≠ c := fun e => hc (e ▸ List.mem_map_of_mem (List.mem_of_getElem? hp))
      have hi' : ¬told.length = i.val := by omega
      obtain ⟨a1, a2⟩ := h.record i p hp
      rw [p1, p2]
      exact ⟨by simpa [hi'] using a1, by simpa [hne _ hpc] using a2⟩
    · have hie : i.val = told.length := by
        by_contra hne'
        rw [List.getElem?_eq_none (by simp; omega)] at hp
        simp at hp
      have hi2 : i = ⟨told.length, hlt⟩ := Fin.ext hie
      rw [hie] at hp
      simp only [List.getElem?_concat_length, Option.some.injEq] at hp
      subst hp
      rw [p1, p2, hbr, hi2]; simp
  · intro i hi
    rw [List.length_append, List.length_singleton] at hi
    have hi' : ¬told.length = i.val := by omega
    rw [p1]
    simpa [hi'] using h.blank i (by omega)
  · intro d hd
    rw [hfst] at hd
    rw [p2]
    simpa [hne _ hd.2] using h.incident d hd.1
  · have := State.assertOn_eq u l c ha
    rw [← hcu] at hid
    have e : (u.assertOn l c).link = { u.link with notices := { u.link.notices with
        incident := (u.assertOn l c).link.notices.incident } } := by
      rw [this, State.detach_link]
      unfold State.stopToFault
      rw [State.takeRecordHere_eq, State.takeRecord_cons _ _ _ _ _ hfree]
      simp [State.postIncident, hid]
    rw [e, h.link]
  · rw [State.assertOn_device, h.device]
  · rw [State.assertOn_supply, h.supply]
  · rw [State.assertOn_effort, h.effort]
  · rw [State.assertOn_clock, h.clock]
  · have e : (u.assertOn l c).arbiter = (u.detach c).arbiter := by
      rw [State.assertOn_eq u l c ha]
      unfold State.detach State.stopToFault
      rw [State.takeRecordHere_eq, State.takeRecord_cons _ _ _ _ _ hfree]
      cases (State.ch _ c).ms.state <;> rfl
    rw [e, hb]
    unfold State.detach
    rw [h.arbiter, hb]; rfl

/-- Channels of a set are told one after the other. -/
theorem FirstFaults.assertOn_fold {b : State} (l : LineId) (hb : b.arbiter = ⟨[], []⟩) : ∀ (cs : List ChanId) (u : State)
    (told : List (ChanId × LineId)), FirstFaults b u told → cs.Nodup →
    (∀ c ∈ cs, c ∉ told.map Prod.fst ∧ (b.ch c).ms.state = .idle) →
    FirstFaults b (cs.foldl (fun s c => s.assertOn l c) u) (told ++ cs.map (·, l))
  | [], u, told, h, _, _ => by simpa using h
  | c :: cs, u, told, h, hn, hc => by
    rw [List.nodup_cons] at hn
    have := FirstFaults.assertOn_fold l hb cs _ _ (h.assertOn l c (hc c (by simp)).2 (hc c (by simp)).1 hb) hn.2 (by
      intro d hd
      have hd' := hc d (by simp [hd])
      refine ⟨?_, hd'.2⟩
      simp only [List.map_append, List.map_cons, List.map_nil, List.mem_append, List.mem_singleton, not_or]
      exact ⟨hd'.1, fun e => hn.1 (e ▸ hd)⟩)
    simpa using this

/-- Fields that the law of the first faults does not look at may change. -/
theorem FirstFaults.relined {b u : State} {told : List (ChanId × LineId)} (h : FirstFaults b u told) (ls : Vector FaultLine 4)
    (n : Nat) : FirstFaults b { u with lines := ls, races := n } told := by
  constructor
  · exact h.nodup
  · exact h.hit
  · exact h.rest
  · exact h.free
  · exact h.waiting
  · exact h.lost
  · exact h.record
  · exact h.blank
  · exact h.incident
  · exact h.link
  · exact h.device
  · exact h.supply
  · exact h.effort
  · exact h.clock
  · exact h.arbiter

/-- A line found active at the first sample: every mapped channel that is IDLE is in FAULT afterwards, and the notice posted
is this line's (R52, R58). -/
theorem FirstFaults.assertLine {b u : State} {told : List (ChanId × LineId)} (h : FirstFaults b u told) (l : LineId)
    (hb : b.arbiter = ⟨[], []⟩) (hrest : ∀ c, (b.ch c).ms.state = .idle ∨ (b.ch c).ms.state = .disabled) :
    ∃ cs : List ChanId, FirstFaults b (u.assertLine l) (told ++ cs.map (·, l)) ∧
      (∀ c, c ∈ cs ↔ inSet b.device.maps[l] c = true ∧ (b.ch c).ms.state = .idle ∧ c ∉ told.map Prod.fst) ∧
      (u.assertLine l).link.notices.faultLine = some (l, true) ∧
      (u.assertLine l).lines = u.lines.set l { u.lines[l] with asserted := true, latch := true } ∧
      (u.assertLine l).lineSampleIn = u.lineSampleIn ∧ (u.assertLine l).pending = u.pending := by
  set u1 : State := { u with lines := u.lines.set l { u.lines[l] with asserted := true, latch := true } } with hu1
  have h1 : FirstFaults b u1 told := h.relined _ u.races
  set cs := u1.openOrder ((chansOf u1.device.maps[l]).filter u1.assertable) with hcs
  have hperm : cs.Perm ((chansOf u1.device.maps[l]).filter u1.assertable) := orderByKey_perm _ _
  have hmem : ∀ c, c ∈ cs ↔ inSet b.device.maps[l] c = true ∧ (b.ch c).ms.state = .idle ∧ c ∉ told.map Prod.fst := by
    intro c
    rw [hperm.mem_iff, List.mem_filter, mem_chansOf, h1.device, State.assertable_iff]
    by_cases hc : c ∈ told.map Prod.fst
    · obtain ⟨p, hp, rfl⟩ := List.mem_map.1 hc
      rw [h1.hit p hp]
      simp [Chan.rest, hc]
    · rw [h1.rest c hc]
      rcases hrest c with e | e <;> simp [e, hc]
  have hnd : cs.Nodup := by
    refine hperm.nodup_iff.2 (List.Nodup.filter _ ?_)
    unfold chansOf
    exact List.Nodup.filter _ (by decide)
  have hf := FirstFaults.assertOn_fold l hb cs u1.countRace told (h1.relined _ _) hnd (fun c hc => ((hmem c).1 hc).2.symm)
  have hpass : u1.assertOnAll l (chansOf u1.device.maps[l]) = cs.foldl (fun s c => s.assertOn l c) u1.countRace := by
    unfold State.assertOnAll
    dsimp only
    rw [if_neg]
    rw [h1.arbiter, hb]; simp
  have hal : u.assertLine l = (cs.foldl (fun s c => s.assertOn l c) u1.countRace).postFaultLine l true := by
    unfold State.assertLine
    dsimp only
    rw [← hu1, hpass]
  have hkeep : ∀ (cs : List ChanId) (v : State), (cs.foldl (fun s c => s.assertOn l c) v).lines = v.lines ∧
      (cs.foldl (fun s c => s.assertOn l c) v).lineSampleIn = v.lineSampleIn ∧
      (cs.foldl (fun s c => s.assertOn l c) v).pending = v.pending := by
    intro cs
    induction cs with
    | nil => intro v; exact ⟨rfl, rfl, rfl⟩
    | cons c cs ih =>
      intro v
      rw [List.foldl_cons]
      obtain ⟨i1, i2, i3⟩ := ih (v.assertOn l c)
      exact ⟨by rw [i1, State.assertOn_lines], by rw [i2, State.assertOn_lineSampleIn], by rw [i3, State.assertOn_pending]⟩
  obtain ⟨k1, k2, k3⟩ := hkeep cs u1.countRace
  refine ⟨cs, ?_, hmem, ?_, ?_, ?_, ?_⟩
  · rw [hal]
    constructor
    · exact hf.nodup
    · exact hf.hit
    · exact hf.rest
    · exact hf.free
    · exact hf.waiting
    · exact hf.lost
    · exact hf.record
    · exact hf.blank
    · exact hf.incident
    · have := hf.link
      unfold State.postFaultLine
      dsimp only
      rw [this]
    · exact hf.device
    · exact hf.supply
    · exact hf.effort
    · exact hf.clock
    · exact hf.arbiter
  · rw [hal]; rfl
  · rw [hal]; exact k1
  · rw [hal]; exact k2
  · rw [hal]; exact k3

/-- The lines found active at the first sample, taken one after the other. -/
theorem FirstFaults.lines_fold {b : State} (hb : b.arbiter = ⟨[], []⟩)
    (hrest : ∀ c, (b.ch c).ms.state = .idle ∨ (b.ch c).ms.state = .disabled) : ∀ (ls : List LineId) (u : State)
    (told : List (ChanId × LineId)), FirstFaults b u told →
    let t := ls.foldl State.assertLine u
    ∃ more, FirstFaults b t (told ++ more) ∧
      (∀ p ∈ more, p.2 ∈ ls ∧ inSet b.device.maps[p.2] p.1 = true ∧ (b.ch p.1).ms.state = .idle) ∧
      (∀ l ∈ ls, ∀ c, inSet b.device.maps[l] c = true → (b.ch c).ms.state = .idle → c ∈ (told ++ more).map Prod.fst) ∧
      (ls = [] → t.link.notices.faultLine = u.link.notices.faultLine) ∧
      (ls ≠ [] → ∃ l ∈ ls, t.link.notices.faultLine = some (l, true)) ∧
      (∀ l, t.lines[l] = if l ∈ ls then { u.lines[l] with asserted := true, latch := true } else u.lines[l]) ∧
      t.lineSampleIn = u.lineSampleIn ∧ t.pending = u.pending
  | [], u, told, h => ⟨[], by simpa using h, by simp, by simp, by simp, by simp, by simp, rfl, rfl⟩
  | l :: ls, u, told, h => by
    obtain ⟨cs, a1, a2, a3, a4, a5, a6⟩ := h.assertLine l hb hrest
    obtain ⟨more, b1, b2, b3, b4, b5, b6, b7, b8⟩ := FirstFaults.lines_fold hb hrest ls _ _ a1
    refine ⟨cs.map (·, l) ++ more, ?_, ?_, ?_, by simp, ?_, ?_, ?_, ?_⟩
    · rw [← List.append_assoc]; exact b1
    · intro p hp
      rcases List.mem_append.1 hp with hp | hp
      · obtain ⟨c, hc, rfl⟩ := List.mem_map.1 hp
        have := (a2 c).1 hc
        exact ⟨by simp, this.1, this.2.1⟩
      · obtain ⟨x, y⟩ := b2 p hp
        exact ⟨List.mem_cons_of_mem _ x, y⟩
    · intro j hj c hm hid
      rw [← List.append_assoc]
      rcases List.mem_cons.1 hj with rfl | hj
      · rw [List.map_append, List.mem_append]
        left
        rw [List.map_append, List.mem_append]
        by_cases hc : c ∈ told.map Prod.fst
        · exact .inl hc
        · right
          rw [List.map_map]
          exact List.mem_map.2 ⟨c, (a2 c).2 ⟨hm, hid, hc⟩, rfl⟩
      · exact b3 j hj c hm hid
    · intro _
      by_cases he : ls = []
      · exact ⟨l, by simp, (b4 he).trans a3⟩
      · obtain ⟨j, hj, hl⟩ := b5 he
        exact ⟨j, by simp [hj], hl⟩
    · intro j
      dsimp only
      rw [List.foldl_cons]
      rw [b6 j, a4]
      by_cases hj : j = l
      · subst hj; simp
      · have h' : ¬l.val = j.val := fun e => hj (Fin.ext e.symm)
        simp [hj, h']
    · exact b7.trans a5
    · exact b8.trans a6

/-- The first samples after a reset of a part at rest: the list of the channels told, and the lines (R58). -/
theorem State.firstLineSamples_spec (s : State) (hb : s.arbiter = ⟨[], []⟩)
    (hrest : ∀ c, (s.ch c).ms.state = .idle ∨ (s.ch c).ms.state = .disabled) (hfree : s.pool.free = allFree)
    (hwait : s.pool.waiting = []) (hline : s.link.notices.faultLine = none) :
    ∃ told, FirstFaults s s.firstLineSamples told ∧
      (∀ p ∈ told, s.lines[p.2].pin = true ∧ inSet s.device.maps[p.2] p.1 = true ∧ (s.ch p.1).ms.state = .idle) ∧
      (∀ (l : LineId) (c : ChanId), s.lines[l].pin = true → inSet s.device.maps[l] c = true → (s.ch c).ms.state = .idle → c ∈ told.map Prod.fst) ∧
      ((∀ l : LineId, s.lines[l].pin = false) → s.firstLineSamples.link.notices.faultLine = none) ∧
      (∀ l : LineId, s.lines[l].pin = true → ∃ j : LineId, s.lines[j].pin = true ∧
        s.firstLineSamples.link.notices.faultLine = some (j, true)) ∧
      (∀ l : LineId, s.firstLineSamples.lines[l] = ⟨s.lines[l].pin, List.replicate 4 s.lines[l].pin, s.lines[l].pin, s.lines[l].pin⟩) ∧
      s.firstLineSamples.lineSampleIn = 2 ∧ s.firstLineSamples.pending = s.pending := by
  set s1 : State := { s with lines := s.lines.map FaultLine.firstSample, lineSampleIn := 2 } with hs1
  set ls := s1.openOrder (allLines.filter (fun l => s1.lines[l].asserted)) with hls
  have hperm : ls.Perm (allLines.filter (fun l => s1.lines[l].asserted)) := orderByKey_perm _ _
  have hl1 : ∀ l : LineId, s1.lines[l] = (s.lines[l]).firstSample := fun l => by simp [s1]
  have hall : ∀ l : LineId, l ∈ allLines := by decide
  have hmem : ∀ l : LineId, l ∈ ls ↔ s.lines[l].pin = true := by
    intro l
    rw [hperm.mem_iff, List.mem_filter, hl1 l]
    exact ⟨fun h => h.2, fun h => ⟨hall l, h⟩⟩
  have h0 : FirstFaults s s1.countRace [] := by
    constructor <;> first | rfl | simp
    · exact fun c => rfl
    · exact hfree
    · exact hwait
    · exact fun i => rfl
    · exact fun c => rfl
  obtain ⟨told, c1, c2, c3, c4, c5, c6, c7, c8⟩ := FirstFaults.lines_fold hb hrest ls _ _ h0
  have ht : s.firstLineSamples = ls.foldl State.assertLine s1.countRace := rfl
  rw [← ht] at c1 c4 c5 c6 c7 c8
  rw [List.nil_append] at c1 c3
  refine ⟨told, c1, ?_, ?_, ?_, ?_, ?_, c7, c8⟩
  · intro p hp
    obtain ⟨x, y⟩ := c2 p hp
    exact ⟨(hmem _).1 x, y⟩
  · intro l c hp; exact c3 l ((hmem l).2 hp) c
  · intro h
    have : ls = [] := List.eq_nil_iff_forall_not_mem.2 (fun l hl => by have := (hmem l).1 hl; rw [h l] at this; simp at this)
    rw [c4 this]; exact hline
  · intro l hl
    obtain ⟨j, hj, e⟩ := c5 (List.ne_nil_of_mem ((hmem l).2 hl))
    exact ⟨j, (hmem j).1 hj, e⟩
  · intro l
    rw [c6 l]
    have : s1.countRace.lines[l] = (s.lines[l]).firstSample := hl1 l
    rw [this]
    unfold FaultLine.firstSample
    by_cases hp : s.lines[l].pin = true
    · rw [if_pos ((hmem l).2 hp)]; simp only [hp]
    · rw [if_neg (fun h => hp ((hmem l).1 h))]; simp only [Bool.not_eq_true] at hp; simp only [hp]

/-- The first supply sample after a reset: U is that sample, and the plain boundaries classify it (R68). -/
theorem Supply.firstSample_spec (su : Supply) : su.firstSample.pin = su.pin ∧ su.firstSample.hist = [min su.pin 30000] ∧
    su.firstSample.u = min su.pin 30000 ∧
    (su.firstSample.state = .cutoff ↔ su.firstSample.u < 6000) ∧
    (su.firstSample.state = .low ↔ 6000 ≤ su.firstSample.u ∧ su.firstSample.u ≤ 8999) ∧
    (su.firstSample.state = .normal ↔ 9000 ≤ su.firstSample.u ∧ su.firstSample.u ≤ 16000) ∧
    (su.firstSample.state = .high ↔ 16000 < su.firstSample.u) := by
  have hu : su.firstSample.u = min su.pin 30000 := rfl
  have hs : su.firstSample.state = classify .normal (min su.pin 30000) := rfl
  refine ⟨rfl, rfl, rfl, ?_⟩
  rw [hs, hu]
  generalize min su.pin 30000 = u
  unfold classify
  refine ⟨?_, ?_, ?_, ?_⟩ <;> (
      dsimp only
      split; · simp; try omega
      split; · simp; try omega
      split; · simp; try omega
      simp; try omega)

end Sys2Proof.Machine
end

