-- ==== Sys2Proof/WellFormed.lean ====
section
/-! DEFINITION. Which commands are well formed. Channel numbers, lines and phases are bounded by their types, and a
request's fields may hold any value a frame can hold (the part judges them itself), so one check is left. -/

namespace Sys2Proof

/-- A PROFILE_LOAD carries eight cell images (Table 11-1); every other command is well formed as it stands. -/
def Instr.wellFormed : Instr → Bool
  | .profileLoad _ _ _ cells => cells.length == 8
  | .identify _ | .configure _ _ _ _ | .readParameter _ _ _ | .move _ _ _ _ _ | .stop _ _
  | .vehicleState _ _ _ | .channelStatus _ _ | .readWindow _ _ | .clearConditions _ _ | .clearFault _ _
  | .profileRead _ _ _ | .channelRestore _ _ _ _ _ | .channelDefaults _ _ | .incidentRead _
  | .incidentRelease _ _ | .lock _ | .reset _ _ | .deviceStatus _ | .serialByteReceived _ _
  | .gapTimerExpiry | .transmitFrameEnd | .powerOnReset | .count _ _ | .illegalTransition _
  | .intervalTimerOverflow _ | .stallWatchdogExpiry _ | .evaluation _ | .dwellExpiry _
  | .backoffTimerExpiry _ | .leaseExpiry _ | .rampStep _ | .commonModeHoldExpiry
  | .roadLevelStalenessExpiry | .supplySample _ | .faultLineAssertion _ | .faultLineRelease _
  | .pwmPeriodBoundary _ => true

end Sys2Proof
end

