-- ==== Sys2Proof/Tests/Slice0.lean ====
section
/-! SUPPORT. Tests: an ill-formed command, the manual's worked examples, small steps, and for every statement a state and
operands that meet its hypotheses. -/

namespace Sys2Proof.Tests

open Sys2Proof Sys2Proof.Machine

/-! ## Well-formed commands -/

/-- One cell image. -/
def image : CellImage := ⟨200, 3, 1, 0⟩

/-- A PROFILE_LOAD with seven images is refused by the check, and one with eight is not. -/
theorem test_wellFormed_counts_images :
    (Instr.profileLoad 0 0 0 (List.replicate 7 image)).wellFormed = false ∧
      (Instr.profileLoad 0 0 0 (List.replicate 8 image)).wellFormed = true := by decide

/-! ## The manual's worked examples -/

/-- Chapter 11, "one IDENTIFY frame": the CRC register after each byte, and the frame. -/
theorem test_identify_frame :
    crcByte 0xFF 0x00 = 0x42 ∧ crcByte 0x42 0x01 = 0x97 ∧ crcByte 0x97 0x00 = 0x80 ∧
      wireFrame 0x01 0x00 [] = [0x7E, 0x00, 0x01, 0x00, 0x80] := by decide +kernel

/-- R45: the ramp of 307 to 1024 in 40 ms. -/
theorem test_ramp_values :
    rampValue 307 1024 1 40 = 324 ∧ rampValue 307 1024 2 40 = 342 ∧ rampValue 307 1024 20 40 = 665 ∧
      rampValue 307 1024 40 40 = 1024 := by decide

/-- R60: the plain boundaries and the hysteresis of 300 mV. -/
theorem test_supply_boundaries :
    classify .normal 9000 = .normal ∧ classify .normal 8999 = .low ∧ classify .low 9299 = .low ∧
      classify .low 9300 = .normal ∧ classify .normal 16000 = .normal ∧ classify .normal 16001 = .high ∧
      classify .high 15701 = .high ∧ classify .high 15700 = .normal ∧ classify .cutoff 6299 = .cutoff ∧
      classify .cutoff 6300 = .low ∧ classify .normal 5999 = .cutoff := by decide

/-- R81 and R97: the excess is rounded toward 0, the average toward minus infinity. -/
theorem test_rounding : rawExcess 100 133 8 = -1 ∧ rawExcess 133 100 8 = 1 ∧ Int.fdiv (-9) 8 = -2 := by decide

/-- R119: a channel of L = 800 has a cell width of 13 and 62 required cells at Z_seal = 8. -/
theorem test_required_cells : cellWidth 800 = 13 ∧ requiredCount 800 8 = 62 ∧ cellIndex 800 (-5) = 0 := by decide

/-- R141 is judged before anything else: a MOVE for a DISABLED channel. -/
theorem test_move_disabled : (State.reset.ch 0).judgeMove .normal (.jog .opening) = some .disabled := by decide

/-! ## States the tests share -/

/-- The part after reset with channel 0 changed. -/
def with0 (f : Chan → Chan) : State := State.reset.setCh 0 (f Chan.reset)

/-- Channel 0 in a state with a motion. -/
def seq0 (st : ChState) (m : Option Motion) : Chan := { Chan.reset with ms := { Chan.reset.ms with state := st, motion := m } }

/-- The part with channel 0 in a state with a motion. -/
def at0 (st : ChState) (m : Option Motion) : State := with0 (fun _ => seq0 st m)

/-- Channel 0 in a state with a motion, its position KNOWN. -/
def known0 (st : ChState) (m : Option Motion) (p : Int) : State := with0 (fun _ => (seq0 st m).setPosition p)

/-- Channel 0 in DWELL with a successor. -/
def dwell0 (succ : Successor) (m : Option Motion) : State :=
  with0 (fun _ => { seq0 .dwell m with ms := { (seq0 .dwell m).ms with dwell := some ⟨succ, 10000, .closing⟩ } })

/-- Channel 0 closing in TRAVEL by an EXPRESS, holding a slot, at position 500. -/
def driving : State :=
  { State.setCh State.reset 0 { (seq0 .travel (some (.express .closing))).setPosition 500 with
      out := { DriveOut.reset with mode := .driveClose, pwm := some 0 } } with arbiter := ⟨[0], []⟩ }

/-- The part with its link changed. -/
def withLink (f : Link → Link) : State := { State.reset with link := f State.reset.link }

/-- The receiver in a phase with a buffer. -/
def rx (ph : RxPhase) (buffer : List Byte) (gap : Option Nat) : State :=
  withLink (fun l => { l with phase := ph, buffer := buffer, gap := gap })

/-- A reply of no interest. -/
def aReply : Reply := ⟨0x81, 0, [0], none⟩

/-- The part with the reply of a RESET being sent. -/
def resetting (m : ResetMode) : State :=
  withLink (fun l => { l with replies := [⟨0x92, 0, [0, 0], some m⟩], sending := some ⟨true, [], 0⟩ })

/-- The part locked. -/
def locked : State := withLink (fun l => { l with locked := true })

/-- The part with fault line 0 ASSERTED. -/
def asserted (s : State) : State := { s with lines := s.lines.set 0 ⟨true, [true, true, true, true], true, true⟩ }

theorem reset_hearing : State.reset.hearing := ⟨by decide, by decide⟩
theorem with0_hearing (f : Chan → Chan) : (with0 f).hearing := ⟨rfl, Nat.succ_pos 3⟩
theorem locked_hearing : locked.hearing := ⟨by decide, by decide⟩
theorem asserted_hearing (f : Chan → Chan) : (asserted (with0 f)).hearing := ⟨rfl, Nat.succ_pos 3⟩

/-! ## Small steps -/

/-- A step with an empty queue and nothing due is 1 µs. -/
theorem test_microsecond : ∃ t, step State.reset = .next t ∧ t.clock = ⟨0, 1⟩ := ⟨State.reset.elapse, by
  refine ⟨?_, by decide⟩
  have h : State.reset.due = [] := by decide +kernel
  simp [step, State.idleStep, h, show State.reset.pending = [] from rfl]⟩

/-- IDENTIFY in front of the queue leaves its reply being sent. -/
theorem test_identify_step : ∃ t, step { State.reset with pending := [.identify 5] } = .next t ∧
    t.link.replies = [⟨0x81, 5, [0, 1, 8, 1, 8, 4, 48, 4], none⟩] ∧ t.pending = [] ∧
    t.link.sending.map Sending.left = some 520 := ⟨_, rfl, by decide⟩

/-- A stall of a closing travel above the seal zone is a pinch: braked, counted, recorded. -/
theorem test_stall_pinch : ∃ t, exec (.stallWatchdogExpiry 0)
      (driving.modCh 0 (fun k => { k with pd := { k.pd with watchdog := some 0 } })) = .next t ∧
    (t.ch 0).ms.state = .dwell ∧ (t.ch 0).successor = some .backoff ∧ (t.ch 0).ms.reversal = 1 ∧
    t.pool.waiting = [0] := ⟨_, rfl, by decide +kernel⟩

/-! ## Witnesses: the hypotheses of every statement hold somewhere, each clause at a boundary value -/

/-- The supply sample due, alone. -/
def sampleDue : State := { State.reset with supply := { State.reset.supply with sampleIn := 0 } }

/-- The supply sample and the gap timer due together. -/
def twoDue : State := { sampleDue with link := (rx .body [0] (some 0)).link }

theorem witness_EmptyQueueStepFollowsTheClock :
    State.reset.pending = [] ∧ State.reset.due = [] ∧ sampleDue.due = [.supplySample 12600] ∧
      twoDue.pending = [] ∧ twoDue.due.length = 2 := by decide +kernel

theorem witness_FullResetActsAsPowerOn :
    (resetting .full).link.sending = some ⟨true, [], 0⟩ ∧
      (resetting .full).link.replies.head? = some ⟨0x92, 0, [0, 0], some .full⟩ ∧ State.reset.hearing ∧
      1 < (2 : Byte).toNat := ⟨by decide, by decide, reset_hearing, by decide⟩

/-- A state whose RESET reply has ended, PRESERVE. -/
def preserving (s : State) : State := { s with link := (resetting .preserve).link }

/-- Fault line 0 active at its input. -/
def pinned (s : State) : State := { s with lines := s.lines.set 0 ⟨true, [true, true, true, true], true, true⟩ }

theorem witness_PreserveResetKeeps :
    let s := preserving (pinned (at0 .idle none))
    s.link.sending = some ⟨true, [], 0⟩ ∧ s.link.replies.head? = some ⟨0x92, 0, [0, 0], some .preserve⟩ ∧
      (s.ch 1).ms.state = .disabled ∧ (s.ch 0).ms.state ≠ .disabled ∧ s.lines[(0 : LineId)].pin = true ∧
      inSet s.device.maps[(0 : LineId)] 0 = true ∧
      ((preserving (at0 .travel (some (.jog .opening)))).ch 0).ms.state ≠ .disabled ∧
      ∀ l : LineId, (preserving (at0 .travel (some (.jog .opening)))).lines[l].pin = false := by decide +kernel

/-- The part with record 3 pending. -/
def incident3 : State := { State.reset with pool := { State.reset.pool with
  free := [0, 1, 2, 4, 5, 6, 7, 8, 9, 10, 11, 12, 13, 14, 15], waiting := [3] } }

theorem driving_slotLaw : driving.SlotLaw := ⟨by decide, by decide, by decide, by decide⟩
theorem driving_arbiterLaw : driving.ArbiterLaw :=
  ⟨by decide, by decide, by decide, by decide, List.Pairwise.nil⟩

theorem witness_SlotsNeverExceedSlotCount : driving.SlotLaw ∧ ∃ t, step driving = .next t :=
  ⟨driving_slotLaw, _, rfl⟩

theorem witness_IncidentRecordsArePartitioned : incident3.pool.Partitioned ∧ ∃ t, step incident3 = .next t :=
  ⟨⟨by decide, by decide⟩, _, rfl⟩

theorem witness_ArbiterMatchesChannelStates :
    driving.ArbiterLaw ∧ driving.SlotLaw ∧ driving.NoneWaits ∧ driving.supply.hist ≠ [] ∧ ∃ t, step driving = .next t :=
  ⟨driving_arbiterLaw, driving_slotLaw, fun _ => rfl, by decide, _, rfl⟩

theorem witness_OutputsFollowStateAndFaultLines :
    driving.OutputsLaw ∧ driving.FaultLineLaw ∧ driving.ArbiterLaw ∧ (∃ t, step driving = .next t) ∧
      (asserted (at0 .fault none)).FaultLineLaw :=
  ⟨fun c => by fin_cases c <;> first | exact ⟨rfl, rfl, rfl, rfl⟩ | exact (rfl : some OutputMode.driveClose = _), by unfold State.FaultLineLaw; decide,
    driving_arbiterLaw, ⟨_, rfl⟩, by unfold State.FaultLineLaw; decide +kernel⟩

theorem chan0_laws (s : State) (h : s = known0 .idle none (-64) ∨ s = known0 .idle none 864) :
    ∀ c, (s.ch c).PositionLaw := by
  rcases h with rfl | rfl <;> intro c <;> unfold Chan.PositionLaw Sequencer.SetsAgree <;> revert c <;> decide +kernel

theorem witness_KnownPositionStaysInBounds :
    (∀ c, ((known0 .idle none 864).ch c).PositionLaw) ∧ (∃ t, step (known0 .idle none 864) = .next t) ∧
      ∀ c, ((known0 .idle none (-64)).ch c).PositionLaw := ⟨chan0_laws _ (.inr rfl), ⟨_, rfl⟩, chan0_laws _ (.inl rfl)⟩

theorem witness_CountersStayInRange :
    (∀ c, (driving.ch c).CounterLaw) ∧ (∀ c, (driving.ch c).WindowLaw) ∧ driving.link.Lawful ∧
      ∃ t, step driving = .next t :=
  ⟨by unfold Chan.CounterLaw; decide +kernel, by unfold Chan.WindowLaw; decide +kernel, by unfold Link.Lawful; decide,
    _, rfl⟩

theorem defaults_ordered : ParamSet.defaults.Ordered := by
  refine ⟨fun p => ?_, by decide, by decide, by decide⟩
  cases p <;> simp only [ChanParam.row, Range.holds] <;> decide

theorem witness_ParameterSetsStayOrdered :
    (∀ c, (driving.ch c).ParamLaw) ∧ ∃ t, step driving = .next t :=
  ⟨fun c => by fin_cases c <;> exact ⟨defaults_ordered, defaults_ordered, rfl, rfl, rfl⟩, _, rfl⟩

theorem blank_lawful : Cell.blank.Lawful := ⟨rfl, rfl, rfl⟩

theorem witness_ProfileCellsStayLawful :
    (∀ c, (driving.ch c).ProfileLaw) ∧ (∃ t, step driving = .next t) ∧ (⟨.valid, 65535, 255, 2⟩ : Cell).Lawful := by
  refine ⟨fun c => ?_, ⟨_, rfl⟩, by simp [Cell.Lawful]⟩
  fin_cases c <;> refine ⟨fun i => ?_, fun i => ?_⟩ <;>
    first
    | (have h : (Vector.replicate 64 Cell.blank)[i.val] = Cell.blank := by simp
       exact h ▸ blank_lawful)
    | (have h : (Vector.replicate 64 (⟨0, 0⟩ : ScratchPair))[i.val] = ⟨0, 0⟩ := by simp
       exact h ▸ ⟨Nat.le_refl 0, Nat.zero_le _, Nat.zero_le _⟩)

theorem witness_ReceiverTakesEachByteByPhase :
    (rx .hunt [] none).link.phase = .hunt ∧ (0x00 : Byte) ≠ 0x7E ∧ (rx .length [] (some 1000)).link.phase = .length ∧
      (48 : Byte).toNat ≤ 48 ∧ 48 < (49 : Byte).toNat ∧ (rx .body [0] (some 1)).link.buffer = (0 : Byte) :: [] ∧
      ([] : List Byte).length + 1 < (0 : Byte).toNat + 2 ∧ (rx .body [0, 1] (some 1)).link.buffer = (0 : Byte) :: [1] ∧
      ([1] : List Byte).length + 1 = (0 : Byte).toNat + 2 ∧ (0x81 : Byte) ≠ crc (rx .check [0, 1, 0] (some 1)).link.buffer ∧
      (rx .body [0] (some 0)).link.gap.isSome = true ∧ State.reset.link.gap = none := by decide +kernel

theorem witness_GoodFrameActsAsItsRequest :
    (rx .check [0, 1, 0] (some 1)).link.buffer = (0 : Byte) :: 0x01 :: 0 :: [] ∧
      (rx .check [0, 1, 0] (some 1)).link.phase = .check ∧ (List.replicate 40 (0 : Byte)).length = 40 := by decide

theorem witness_FramesTurnedAway :
    (rx .check [0, 0x14, 0] (some 1)).hearing ∧ (rx .check [0, 0x14, 0] (some 1)).link.phase = .check ∧
      0x13 < (0x14 : Byte).toNat ∧ ([7] : List Byte).length ≠ 0 ∧ isRequest (.lock 0) = true ∧
      (withLink (fun l => { l with replies := [aReply, aReply, aReply, aReply] })).link.resetAwaited = false ∧
      (withLink (fun l => { l with replies := [aReply, aReply, aReply, aReply] })).link.replies.length = 4 ∧
      (resetting .full).link.resetAwaited = true := by
  refine ⟨⟨by decide, by decide⟩, ?_⟩; decide

theorem witness_TransmitterSendsOneFrameAtATime :
    (withLink (fun l => { l with replies := [aReply] })).link.sending = none ∧ State.reset.link.sending = none ∧
      State.reset.link.replies = [] ∧ State.reset.link.notices = Notices.empty ∧
      (withLink (fun l => { l with replies := [aReply], sending := some ⟨true, [], 0⟩ })).link.sending =
        some ⟨true, [], 0⟩ ∧ aReply.reset = none := by decide

/-- The part with a notice set. -/
def noticed (n : Notices) : State := withLink (fun l => { l with notices := n })

/-- A notice set with both entries of channel 0. -/
def notices0 : Notices := { Notices.empty with
  motionEnd := Notices.empty.motionEnd.set 0 (some ⟨.stopped, 0, true⟩), incident := Notices.empty.incident.set 0 (some 3) }

/-- A notice set with an INCIDENT of channel 0. -/
def noticesI : Notices := { Notices.empty with incident := Notices.empty.incident.set 0 (some 3) }

/-- A notice set with both entries of the part. -/
def notices8 : Notices := { Notices.empty with faultLine := some (3, true), supply := some (.low, 8000) }

theorem witness_NoticesAreServedInTurn :
    (∀ q : Fin 9, (q - (noticed notices0).link.lastServed - 1 : Fin 9) < 0 - (noticed notices0).link.lastServed - 1 →
        notices0.occupied q = false) ∧ notices0.occupied 0 = true ∧ noticesI.occupied 0 = true ∧
      noticesI.motionEnd[(0 : ChanId)] = none ∧ notices8.occupied 8 = true ∧
      (∀ q : Fin 9, (q - (noticed notices8).link.lastServed - 1 : Fin 9) < 8 - (noticed notices8).link.lastServed - 1 →
        notices8.occupied q = false) ∧
      notices8.faultLine = some (3, true) ∧ ({ notices8 with faultLine := none } : Notices).supply = some (.low, 8000) := by
  decide

theorem witness_IdentifyAnswersTheIdentity : State.reset.hearing := reset_hearing

/-- The part with every channel in the grant queue. -/
def eightQueued : State := { State.reset with arbiter := ⟨[], allChans.map (fun c => ⟨c, false⟩)⟩ }

theorem witness_DeviceStatusSnapshot : eightQueued.hearing ∧ eightQueued.arbiter.queue.length = 8 :=
  ⟨⟨by decide, by decide⟩, by decide⟩

theorem witness_LockProtects :
    locked.hearing ∧ locked.link.locked = true ∧ (7 : Byte).toNat = (7 : ChanId).val ∧
      (0x28 : Byte).toNat = ChanParam.maskDrift.row.ident ∧ ChanParam.maskDrift.row.safety = true ∧
      ChanParam.maskDrift.row.range.admits (1 : Word16).toNat = true ∧ (0x47 : Byte).toNat = (DevParam.lineMap 3).ident ∧
      (7 : Byte).toNat < 8 ∧ (List.replicate 8 image).length = 8 ∧
      (∀ i ∈ List.replicate 8 image, i.stateCode = 0 ∨ i.stateCode = 1) :=
  ⟨locked_hearing, by decide⟩

theorem witness_VehicleStateAndSharedTimers :
    State.reset.hearing ∧ ({ State.reset with effort := ⟨none, 3, some 5, 0, []⟩ } : State).effort.staleness.isSome = true :=
  ⟨reset_hearing, by decide⟩

theorem witness_IncidentReadAndRelease :
    State.reset.hearing ∧ State.reset.pool.waiting = [] ∧ incident3.hearing ∧ incident3.pool.waiting = 3 :: [] ∧
      15 < (16 : Byte).toNat ∧ (15 : Byte).toNat = (15 : RecId).val ∧ (15 : RecId) ∉ incident3.pool.waiting ∧
      (3 : RecId) ∈ incident3.pool.waiting :=
  ⟨reset_hearing, rfl, ⟨by decide, by decide⟩, by decide⟩

theorem witness_BadChannelIsRefused :
    State.reset.hearing ∧ 8 ≤ (8 : Byte).toNat ∧ (0x28 : Byte).toNat = ChanParam.maskDrift.row.ident ∧
      (List.replicate 8 image).length = 8 := ⟨reset_hearing, by decide⟩

theorem witness_ChannelStatusSnapshot : State.reset.hearing ∧ (7 : Byte).toNat = (7 : ChanId).val :=
  ⟨reset_hearing, by decide⟩

theorem witness_ProfileCompleteness : 64 ≤ 64 := Nat.le_refl 64

theorem witness_ReadWindowSnapshot : State.reset.hearing ∧ (0 : Byte).toNat = (0 : ChanId).val :=
  ⟨reset_hearing, by decide⟩

theorem witness_ClearConditionsClearsStickyFlags :
    State.reset.hearing ∧ 8 ≤ (8 : Byte).toNat ∧ (7 : Byte).toNat = (7 : ChanId).val := ⟨reset_hearing, by decide⟩

theorem witness_ClearFaultReturnsToIdle :
    State.reset.hearing ∧ (0 : Byte).toNat = (0 : ChanId).val ∧ (State.reset.ch 0).ms.state ≠ .fault ∧
      (asserted (at0 .fault none)).hearing ∧ ((asserted (at0 .fault none)).ch 0).ms.state = .fault ∧
      (asserted (at0 .fault none)).lines[(0 : LineId)].asserted = true ∧
      inSet (asserted (at0 .fault none)).device.maps[(0 : LineId)] 0 = true ∧ (at0 .fault none).hearing ∧
      ((at0 .fault none).ch 0).ms.state = .fault ∧
      ∀ l : LineId, (at0 .fault none).lines[l].asserted = true → inSet (at0 .fault none).device.maps[l] 0 = false :=
  ⟨reset_hearing, by decide, by decide, asserted_hearing _, by decide, by decide, by decide, with0_hearing _, by decide,
    by decide⟩

theorem witness_ProfileReadAndLoad :
    State.reset.hearing ∧ 8 ≤ (8 : Byte).toNat ∧ (7 : Byte).toNat = (7 : Fin 8).val ∧ (List.replicate 8 image).length = 8 ∧
      ¬(∀ i ∈ List.replicate 8 (⟨0, 0, 2, 0⟩ : CellImage), i.stateCode = 0 ∨ i.stateCode = 1) ∧
      (∀ i ∈ List.replicate 8 image, i.stateCode = 0 ∨ i.stateCode = 1) ∧ locked.hearing ∧ locked.link.locked = true ∧
      State.reset.link.locked = false ∧ (State.reset.ch 7).ms.state = .disabled ∧
      (at0 .queued (some (.jog .opening))).hearing ∧ ((at0 .queued (some (.jog .opening))).ch 0).ms.state = .queued :=
  ⟨reset_hearing, by decide, by decide, by decide, by decide, by decide, locked_hearing, by decide, by decide, by decide,
    with0_hearing _, by decide⟩

theorem witness_ChannelRestoreAndDefaults :
    State.reset.hearing ∧ (State.reset.ch 7).ms.state = .disabled ∧ (at0 .dwell none).hearing ∧
      ((at0 .dwell none).ch 0).ms.state = .dwell ∧ (at0 .idle none).hearing ∧ ((at0 .idle none).ch 0).ms.state = .idle ∧
      (at0 .idle none).link.locked = false :=
  ⟨reset_hearing, by decide, with0_hearing _, by decide, with0_hearing _, by decide, by decide⟩

theorem witness_ReadParameterReturnsTheValue :
    State.reset.hearing ∧ (∀ p : ChanParam, (0x29 : Byte).toNat ≠ p.row.ident) ∧
      (∀ p : DevParam, (0x29 : Byte).toNat ≠ p.ident) ∧ (0x28 : Byte).toNat = ChanParam.maskDrift.row.ident ∧
      (0x40 : Byte).toNat = DevParam.slotCount.ident := by
  refine ⟨reset_hearing, fun p => by cases p <;> decide, fun p => ?_, by decide, by decide⟩
  cases p <;> first | decide | (rename_i l; revert l; decide)

theorem witness_ConfigureRefusalsInOrder :
    State.reset.hearing ∧ (∀ p : ChanParam, (0x48 : Byte).toNat ≠ p.row.ident) ∧
      (∀ p : DevParam, (0x48 : Byte).toNat ≠ p.ident) ∧ (0x05 : Byte).toNat = ChanParam.captureTick.row.ident ∧
      ChanParam.captureTick.row.range = .codes [1, 2, 4, 8] ∧ (3 : Word16).toNat ∉ [1, 2, 4, 8] ∧ locked.hearing ∧
      locked.link.locked = true ∧ ChanParam.travelLength.row.safety = true ∧ (at0 .idle none).hearing ∧
      (at0 .idle none).link.locked = false ∧ ((at0 .idle none).ch 0).ms.state ≠ .disabled ∧
      (at0 .backoff none).hearing ∧ ((at0 .backoff none).ch 0).ms.state.holding = true ∧
      (asserted State.reset).link.locked = false ∧ (asserted State.reset).lines[(0 : LineId)].asserted = true ∧
      inSet (asserted State.reset).device.maps[(0 : LineId)] 0 = true ∧ driving.link.locked = false ∧
      driving.arbiter.holders ≠ [] := by
  refine ⟨reset_hearing, fun p => by cases p <;> decide, fun p => ?_, by decide, by decide, by decide, locked_hearing,
    by decide, by decide, with0_hearing _, by decide, by decide, with0_hearing _, by decide, by decide, by decide, by decide,
    by decide, by decide⟩
  cases p <;> first | decide | (rename_i l; revert l; decide)

theorem witness_ConfigureStoresTheValue :
    State.reset.hearing ∧ (0x0F : Byte).toNat = ChanParam.dwellTime.row.ident ∧
      ChanParam.dwellTime.row.range.admits (0xFFFF : Word16).toNat = true ∧ State.reset.link.locked = false ∧
      ChanParam.dwellTime ∉ [ChanParam.enable, .endMode, .travelLength, .persistenceDepth, .persistenceCount, .zSeal, .zPinch] ∧
      ChanParam.dwellTime.row.range = .span 2 100 ∧ (State.reset.ch 0).ms.state = .disabled ∧ (1 : Word16).toNat ≤ 1 ∧
      State.reset.arbiter.holders = [] := ⟨reset_hearing, by decide⟩

theorem witness_FaultLineMapIsWritten :
    State.reset.hearing ∧ State.reset.link.locked = false ∧ (0x47 : Byte).toNat = 0x44 + (3 : LineId).val ∧
      State.reset.lines[(3 : LineId)].asserted = false ∧
      (let s := asserted (State.reset.setCh 2 (seq0 .idle none))
       s.hearing ∧ s.link.locked = false ∧ (0x44 : Byte).toNat = 0x44 + (0 : LineId).val ∧
         s.lines[(0 : LineId)].asserted = true ∧ inSet (BitVec.ofNat 8 (0x07 : Word16).toNat) 2 = true ∧
         inSet s.device.maps[(0 : LineId)] 2 = false ∧ (s.ch 2).ms.state ≠ .disabled ∧ (s.ch 2).ms.state ≠ .fault ∧
         (s.ch 0).ms.state = .disabled ∧ (0 : ChanId) ∉ s.arbiter.queue.map QueueEntry.chan) :=
  ⟨reset_hearing, by decide, by decide, by decide, ⟨by decide, by decide⟩, by decide⟩

theorem witness_DependentParametersAreAdjusted :
    State.reset.hearing ∧ (0 : Byte).toNat = (0 : ChanId).val ∧ State.reset.link.locked = false ∧
      (State.reset.ch 0).ms.state = .disabled := ⟨reset_hearing, by decide⟩

theorem witness_EnableAndDisable :
    State.reset.hearing ∧ (State.reset.ch 0).ms.state = .disabled ∧
      (∀ l : LineId, State.reset.lines[l].asserted = true → inSet State.reset.device.maps[l] 0 = false) ∧
      (at0 .idle none).hearing ∧ ((at0 .idle none).ch 0).ms.state = .idle :=
  ⟨reset_hearing, by decide, by decide, with0_hearing _, by decide⟩

/-- A channel whose profile is complete, at a position, its reversal counter at a value. -/
def closable (st : ChState) (p : Int) (n : Nat) : Chan :=
  { (seq0 st none).setPosition p with
    rps := { Profile.reset with cells := Vector.replicate 64 ⟨.valid, 200, 1, 0⟩ }
    ms := { (seq0 st none).ms with reversal := n } }

/-- The part with a channel 0 that could close. -/
def closable0 (st : ChState) (p : Int) (n : Nat) : State := with0 (fun _ => closable st p n)

/-- For each refusal code a channel whose first failing check gives it, and one that fails none. -/
theorem witness_MoveRefusalsInOrder :
    3 < (4 : Byte).toNat ∧ 1 < (2 : Byte).toNat ∧ chansOf 0x01 = [0] ∧ chansOf 0x80 = [7] ∧
      kindOf 1 = some .express ∧ kindOf 3 = some .normalize ∧ dirOf 0 = some .closing ∧
      (at0 .idle none).hearing ∧ (State.reset.ch 0).judgeMove .cutoff (.jog .closing) = some .disabled ∧
      ((dwell0 (.fault .glitch) none).ch 0).judgeMove .cutoff (.jog .closing) = some .faulted ∧
      ((at0 .idle none).ch 0).judgeMove .cutoff (.jog .closing) = some .supply ∧
      ((with0 (fun _ => { closable .idle 0 0 with ms := { (closable .idle 0 0).ms with marker := true } })).ch 0).judgeMove
        .low (.jog .opening) = some .reversing ∧
      ((dwell0 (.idle .stopped) none).ch 0).judgeMove .low (.jog .closing) = some .busy ∧
      ((at0 .travel (some (.normalize .fill))).ch 0).judgeMove .high (.jog .closing) = some .busy ∧
      ((at0 .travel (some (.jog .closing))).ch 0).judgeMove .high (.normalize .seek) = some .busy ∧
      ((at0 .idle none).ch 0).judgeMove .normal (.express .closing) = some .positionUnknown ∧
      ((known0 .idle none 800).ch 0).judgeMove .normal (.goTo .closing 0) = some .notNormalized ∧
      ((closable0 .idle 800 3).ch 0).judgeMove .normal (.express .closing) = some .reversalLimit ∧
      ((closable0 .idle 800 2).ch 0).judgeMove .normal (.express .closing) = none :=
  ⟨by decide, by decide, by decide, by decide, by decide, by decide, by decide, with0_hearing _, by decide +kernel⟩

theorem witness_MoveOfAnIdleChannel :
    (closable0 .idle 800 2).hearing ∧ chansOf 0x01 = [0] ∧ kindOf 1 = some .express ∧ dirOf 0 = some .closing ∧
      ((closable0 .idle 800 2).ch 0).ms.state = .idle ∧
      ((closable0 .idle 800 2).ch 0).judgeMove .normal (.express .closing) = none ∧
      ((closable0 .idle 800 2).ch 0).atTarget (.express .closing) = false ∧
      (closable0 .idle 800 2).supply.state = .normal ∧
      (closable0 .idle 800 2).arbiter.holders.length < (closable0 .idle 800 2).device.slotCount ∧
      (closable0 .idle 800 2).arbiter.queue = [] ∧
      (({ closable0 .idle 800 2 with arbiter := ⟨[1, 2], []⟩ } : State).device.slotCount ≤ 2) ∧
      (heldFirst (closable0 .idle 800 2).arbiter.queue) ∧
      ((closable0 .idle 400 2).ch 0).judgeMove .normal (.goTo .opening 400) = none ∧
      ((closable0 .idle 400 2).ch 0).judgeMove .normal (.goTo .closing 400) = none :=
  ⟨with0_hearing _, by decide, by decide, by decide, by decide, by decide +kernel, by decide, by decide, by decide, by decide,
    by decide, List.Pairwise.nil, by decide +kernel, by decide +kernel⟩

/-- The motion of a channel that could close. -/
def moving0 (st : ChState) (m : Motion) : State :=
  with0 (fun _ => { closable st 400 0 with ms := { (closable st 400 0).ms with motion := some m } })

theorem witness_MoveActsOnARunningMotion :
    (moving0 .startup (.jog .closing)).hearing ∧ chansOf 0x01 = [0] ∧
      ((moving0 .startup (.jog .closing)).ch 0).ms.state = .startup ∧
      ((moving0 .startup (.jog .closing)).ch 0).judgeMove .normal (.jog .closing) = none ∧
      ((moving0 .travel (.express .closing)).ch 0).judgeMove .normal (.jog .closing) = none ∧
      ((moving0 .travel (.express .closing)).ch 0).judgeMove .normal (.express .closing) = none ∧
      ((moving0 .travel (.jog .closing)).ch 0).judgeMove .normal (.express .closing) = none ∧
      ((moving0 .travel (.jog .closing)).ch 0).judgeMove .normal (.goTo .closing 399) = none ∧
      ((moving0 .travel (.jog .closing)).ch 0).atTarget (.goTo .closing 399) = false ∧
      ((moving0 .travel (.jog .closing)).ch 0).atTarget (.goTo .closing 400) = true ∧
      ((moving0 .travel (.jog .closing)).ch 0).judgeMove .normal (.goTo .closing 400) = none ∧
      ((moving0 .travel (.normalize .seek)).ch 0).judgeMove .normal (.normalize .seek) = none ∧
      ((moving0 .travel (.jog .closing)).ch 0).judgeMove .normal (.jog .opening) = none :=
  ⟨with0_hearing _, by decide +kernel⟩

/-- Channel 0 in DWELL toward STARTUP with a motion. -/
def toward0 (m : Motion) : State :=
  with0 (fun _ => { closable .dwell 400 0 with ms := { (closable .dwell 400 0).ms with
    motion := some m, dwell := some ⟨.startup, 10000, .opening⟩ } })

theorem witness_MoveActsOnAWaitingMotion :
    (moving0 .queued (.jog .closing)).hearing ∧ ((moving0 .queued (.jog .closing)).ch 0).ms.state = .queued ∧
      ((moving0 .queued (.jog .closing)).ch 0).judgeMove .normal (.jog .closing) = none ∧
      ((moving0 .queued (.normalize .seek)).ch 0).judgeMove .normal (.normalize .seek) = none ∧
      ((moving0 .queued (.express .closing)).ch 0).judgeMove .normal (.express .closing) = none ∧
      ((moving0 .queued (.jog .closing)).ch 0).judgeMove .normal (.express .closing) = none ∧
      heldFirst [⟨0, true⟩, ⟨1, false⟩] ∧ ((moving0 .queued (.jog .closing)).ch 0).atTarget (.goTo .closing 400) = true ∧
      ((moving0 .queued (.jog .closing)).ch 0).judgeMove .normal (.goTo .closing 400) = none ∧
      (0 : ChanId) ∉ (moving0 .queued (.jog .closing)).arbiter.holders ∧ (toward0 (.jog .closing)).hearing ∧
      ((toward0 (.jog .closing)).ch 0).successor = some .startup ∧
      ((toward0 (.jog .closing)).ch 0).judgeMove .normal (.goTo .closing 400) = none :=
  ⟨with0_hearing _, by decide, by decide +kernel, by decide +kernel, by decide +kernel, by decide +kernel,
    by simp [heldFirst], by decide, by decide +kernel, by decide, with0_hearing _, by decide, by decide +kernel⟩

theorem witness_StopActsByState :
    (moving0 .queued (.jog .closing)).hearing ∧ chansOf 0x01 = [0] ∧ (0 : ChanId) ∉ (moving0 .queued (.jog .closing)).arbiter.holders ∧
      ((moving0 .queued (.jog .closing)).ch 0).ms.state = .queued ∧ (driving.ch 0).ms.state = .travel ∧
      ((dwell0 .backoff none).ch 0).successor = some .backoff ∧ ((dwell0 .startup none).ch 0).successor = some .startup ∧
      ((at0 .backoff none).ch 0).ms.state = .backoff ∧
      ((dwell0 (.idle .stopped) none).ch 0).successor = some (.idle .stopped) ∧
      ((dwell0 (.fault .drift) none).ch 0).successor = some (.fault .drift) :=
  ⟨with0_hearing _, by decide⟩

/-- Channel 0 with a lease that has run out. -/
def leased0 (st : ChState) : State :=
  with0 (fun _ => { seq0 st (some (.jog .opening)) with ms := { (seq0 st (some (.jog .opening))).ms with lease := some 0 } })

theorem witness_LeaseAndBackoffTimersExpire :
    (State.reset.ch 0).ms.lease = none ∧ ((leased0 .queued).ch 0).ms.lease.isSome = true ∧
      (0 : ChanId) ∉ (leased0 .queued).arbiter.holders ∧ ((leased0 .queued).ch 0).ms.state = .queued ∧
      ((leased0 .travel).ch 0).ms.state = .travel ∧ ((leased0 .travel).ch 0).ms.lease.isSome = true ∧
      ((dwell0 .startup (some (.jog .opening))).ch 0).successor = some .startup ∧
      ((at0 .backoff none).ch 0).ms.state = .backoff ∧ (State.reset.ch 0).ms.state ≠ .backoff := by decide

/-- Channel 0 in DWELL toward BACKOFF with a target, at a position. -/
def toBackoff0 (target p : Int) : State :=
  with0 (fun _ => { (seq0 .dwell none).setPosition p with ms := { (seq0 .dwell none).ms with
    dwell := some ⟨.backoff, 0, .closing⟩, backoff := some ⟨target, none⟩ } })

theorem witness_DwellExpiryEntersTheSuccessor :
    ((dwell0 (.idle .stopped) none).ch 0).ms.state = .dwell ∧
      ((dwell0 (.idle .stopped) none).ch 0).successor = some (.idle .stopped) ∧
      ((dwell0 (.fault .drift) none).ch 0).successor = some (.fault .drift) ∧
      ((dwell0 .startup (some (.jog .opening))).ch 0).ms.motion = some (.jog .opening) ∧
      Motion.unattendedClose (.jog .opening) = false ∧ Motion.unattendedClose (.express .closing) = true ∧
      ((dwell0 .startup (some (.express .closing))).ch 0).pd.known = false ∧
      ((toBackoff0 401 400).ch 0).successor = some .backoff ∧
      ¬(((toBackoff0 401 400).ch 0).pd.known = true ∧ (401 : Int) ≤ ((toBackoff0 401 400).ch 0).pd.position) ∧
      ((toBackoff0 400 400).ch 0).pd.known = true ∧ (400 : Int) ≤ ((toBackoff0 400 400).ch 0).pd.position := by decide

theorem witness_CountAtRestMovesThePosition :
    ((false, false, HallPhase.a) ∈
        [(false, false, HallPhase.a), (true, false, HallPhase.b), (true, true, HallPhase.a), (false, true, HallPhase.b)]) ∧
      ((false, false, HallPhase.b) ∉
        [(false, false, HallPhase.a), (true, false, HallPhase.b), (true, true, HallPhase.a), (false, true, HallPhase.b)]) ∧
      ((known0 .idle none (-63)).ch 0).ms.state = .idle ∧ ((known0 .idle none (-63)).ch 0).countDir .a = .closing ∧
      ((known0 .idle none (-63)).ch 0).pd.position + -1 = -64 ∧ ((known0 .idle none (-64)).ch 0).pd.position + -1 < -64 ∧
      ((known0 .idle none 864).ch 0).countDir .b = .opening ∧
      ((known0 .idle none 864).ch 0).ms.active.get .travelLength + 64 < ((known0 .idle none 864).ch 0).pd.position + 1 ∧
      (State.reset.ch 0).pd.known = false ∧ (State.reset.ch 0).pd.ring.length < 4 := by decide

/-- Channel 0 driven, its interval ring full. -/
def ring0 (m : Motion) (p : Int) : State :=
  with0 (fun _ => let k := (seq0 .travel (some m)).setPosition p
    { k with pd := { k.pd with ring := [10, 11, 12, 13] } })

theorem witness_CountOfADrive :
    ((at0 .startup (some (.jog .opening))).ch 0).ms.state = .startup ∧
      ((at0 .startup (some (.jog .opening))).ch 0).countDir .b = Motion.dir (.jog .opening) ∧
      ((at0 .startup (some (.jog .opening))).ch 0).pd.known = false ∧
      ((ring0 (.express .opening) 799).ch 0).countDir .b = .opening ∧
      ((ring0 (.express .opening) 799).ch 0).ms.active.get .travelLength ≤ 800 ∧
      ((ring0 (.express .opening) 799).ch 0).pd.position + 1 = 800 ∧
      ((ring0 (.express .closing) (-63)).ch 0).countDir .a = .closing ∧
      ((ring0 (.express .closing) (-63)).ch 0).ms.active.get .endMode = 0 ∧
      ((ring0 (.express .closing) (-63)).ch 0).pd.known = true ∧ ((ring0 (.express .closing) (-63)).ch 0).pd.overflow = 0 ∧
      (-64 : Int) ≤ ((ring0 (.express .closing) (-63)).ch 0).pd.position - 1 ∧
      ((ring0 (.express .closing) (-63)).ch 0).pd.ring = [10, 11, 12, 13] := by decide

/-- Channel 0 in a state with the mask of GLITCH at a value. -/
def glitch0 (st : ChState) (mask : Nat) : State :=
  with0 (fun _ => let k := seq0 st (some (.jog .closing))
    { k with ms := { k.ms with active := k.ms.active.set .maskGlitch mask } })

theorem witness_IllegalTransitionRaisesGlitch :
    ((glitch0 .travel 1).ch 0).ms.active.get .maskGlitch = 1 ∧ ((glitch0 .travel 0).ch 0).ms.active.get .maskGlitch ≠ 1 ∧
      ((glitch0 .travel 0).ch 0).ms.state.driving = true ∧ ((glitch0 .dwell 0).ch 0).ms.active.get .maskGlitch ≠ 1 ∧
      ((glitch0 .dwell 0).ch 0).ms.state.driving = false ∧ ((glitch0 .dwell 0).ch 0).ms.state ≠ .queued ∧
      (glitch0 .travel 0).pool.free = 0 :: [1, 2, 3, 4, 5, 6, 7, 8, 9, 10, 11, 12, 13, 14, 15] := by decide

/-- Channel 0 with an overflow count, its watchdog running. -/
def overflow0 (st : ChState) (n : Nat) : State :=
  with0 (fun _ => let k := seq0 st (some (.jog .closing))
    { k with pd := { k.pd with overflow := n, watchdog := some 5 } })

theorem witness_IntervalTimerOverflowCounts :
    ((overflow0 .idle 0).ch 0).pd.overflow = 0 ∧ ((overflow0 .idle 1).ch 0).pd.overflow = 1 ∧
      ((overflow0 .idle 1).ch 0).ms.state.driving = false ∧ ((overflow0 .travel 1).ch 0).pd.overflow = 1 ∧
      ((overflow0 .travel 1).ch 0).ms.state.driving = true ∧ ((overflow0 .travel 1).ch 0).pd.watchdog.isSome = true := by
  decide

/-- Channel 0 driven by a motion, its watchdog expired, with one active parameter changed. -/
def stall0 (st : ChState) (m : Motion) (p : Int) (known : Bool) (q : ChanParam) (v : Nat) (override : Bool) : State :=
  with0 (fun _ => let k := seq0 st (some m)
    { k with pd := { k.pd with watchdog := some 0, position := p, known := known }
             ms := { k.ms with active := k.ms.active.set q v, override := override } })

theorem witness_StallIsTakenByStateAndMotion :
    ((stall0 .backoff (.jog .closing) 0 true .endMode 0 false).ch 0).pd.watchdog.isSome = true ∧
      Motion.seeking (.normalize .seek) = true ∧ Motion.seeking (.normalize .fill) = false ∧
      Motion.dir (.normalize .fill) = .closing ∧ Motion.dir (.normalize .openUp) = .opening ∧
      ((stall0 .travel (.express .closing) 7 true .endMode 1 false).ch 0).ms.active.get .endMode = 1 ∧
      ((stall0 .travel (.express .closing) 7 true .endMode 1 false).ch 0).pd.position <
        ((stall0 .travel (.express .closing) 7 true .endMode 1 false).ch 0).ms.active.get .zSeal ∧
      ((stall0 .travel (.jog .closing) 0 false .endMode 0 false).ch 0).pd.known = false ∧
      ((stall0 .travel (.jog .closing) (-12) true .endMode 0 false).ch 0).pd.position.natAbs ≤
        ((stall0 .travel (.jog .closing) (-12) true .endMode 0 false).ch 0).ms.active.get .endTolerance ∧
      ((stall0 .travel (.jog .closing) (-13) true .endMode 0 false).ch 0).ms.active.get .endTolerance <
        ((stall0 .travel (.jog .closing) (-13) true .endMode 0 false).ch 0).pd.position.natAbs ∧
      ((stall0 .travel (.jog .closing) (-13) true .endMode 0 false).ch 0).ms.active.get .maskDrift = 1 ∧
      ((stall0 .travel (.jog .closing) (-13) true .maskDrift 0 false).ch 0).ms.active.get .maskDrift ≠ 1 ∧
      ((stall0 .travel (.jog .closing) 8 true .endMode 0 true).ch 0).ms.active.get .zSeal ≤ 8 ∧
      ((stall0 .travel (.jog .closing) 8 true .endMode 0 true).ch 0).ms.override = true ∧
      ((stall0 .travel (.jog .closing) 8 true .endMode 0 false).ch 0).ms.override = false := by decide

theorem witness_PinchResponseTakesARecord :
    let s := stall0 .travel (.jog .closing) 8 true .endMode 0 false
    (s.ch 0).pd.watchdog.isSome = true ∧ (s.ch 0).ms.motion = some (.jog .closing) ∧ (s.ch 0).ms.state = .travel ∧
      Motion.dir (.jog .closing) = .closing ∧ Motion.seeking (.jog .closing) = false ∧ (s.ch 0).pd.known = true ∧
      ((s.ch 0).ms.active.get .zSeal : Int) ≤ (s.ch 0).pd.position ∧ (s.ch 0).ms.override = false := by decide

/-- An evaluation's inputs, every condition masked. -/
def evalIn (duty : Nat) : EvalInput := ⟨100, false, 12600, duty, 8, false, ParamSet.defaults, ⟨.valid, 90, 1, 0⟩⟩

theorem witness_EvaluationStagesComputeTheExcess :
    (evalIn 1024).overflowed = false ∧ (∀ x : Condition, (evalIn 1024).active.get x.mask = 1) ∧
      (evalIn 1024).cell.state = .valid ∧ (max 6000 (min 6000 18000)) * 511 / 1024 < 3000 ∧
      3000 ≤ (max 6000 (min 6000 18000)) * 512 / 1024 := by
  refine ⟨by decide, fun x => by cases x <;> decide, by decide, by decide, by decide⟩

/-- Channel 0 in TRAVEL with one evaluation request at a position with a cycle period. -/
def asked0 (p : Int) (period drive : Nat) : State :=
  { with0 (fun _ => let k := closable .travel p 0
      { k with out := { k.out with applied := 1024 }, ms := { k.ms with motion := some (.express .closing) } }) with
    effort := { Effort.reset with requests := [⟨0, drive, true, p, period, false⟩] } }

theorem witness_SealZoneEvaluationWritesTheWindow :
    (asked0 7 215 1).effort.requests = [] ++ ⟨0, 1, true, 7, 215, false⟩ :: [] ∧ 1 ≠ ((asked0 7 215 1).ch 0).pd.drive ∧
      (let s := asked0 7 215 0
       let k := s.ch 0
       let cell := cellIndex (k.ms.active.get .travelLength) 7
       let ue := s.supply.u * k.out.applied / 1024
       let pn := (215 * ue + 6750) / 13500
       let x := (((pn : Int) - k.rps.cells[cell].reference) * k.ms.active.get .closingGain).tdiv 256
       0 = k.pd.drive ∧ k.ms.state = .travel ∧ (7 : Int) < (k.ms.active.get .zSeal : Int) ∧ 6000 ≤ s.supply.u ∧
         s.supply.u ≤ 18000 ∧ 3000 ≤ ue ∧ 1 ≤ pn ∧ pn ≤ 65535 ∧ k.rps.cells[cell].state = .valid ∧ -2048 ≤ x ∧
         x ≤ 2047 ∧ k.rps.scratch[cell].count < 4095) := by decide +kernel

theorem witness_HardLimitPinchesAtOneCount :
    let s := asked0 8 20000 0
    let k := s.ch 0
    let cell := cellIndex (k.ms.active.get .travelLength) 8
    let ue := s.supply.u * k.out.applied / 1024
    let pn := (20000 * ue + 6750) / 13500
    let x := (((pn : Int) - k.rps.cells[cell].reference) * k.ms.active.get .closingGain).tdiv 256
    s.effort.requests = [⟨0, k.pd.drive, true, 8, 20000, false⟩] ∧ k.ms.state = .travel ∧
      (k.ms.active.get .zSeal : Int) ≤ 8 ∧ 6000 ≤ s.supply.u ∧ s.supply.u ≤ 18000 ∧ 3000 ≤ ue ∧ 1 ≤ pn ∧ pn ≤ 65535 ∧
      k.rps.cells[cell].state = .valid ∧ (k.ms.active.get .tHard : Int) < x ∧ x ≤ 2047 ∧ k.ms.override = false := by
  decide +kernel

theorem witness_DecisionFollowsThreshold : zoneAt ParamSet.defaults 8 ≠ .seal ∧ zoneAt ParamSet.defaults 7 = .seal := by decide

theorem witness_CellAdaptation :
    let p : ScratchPair := ⟨500, 4⟩
    p.count ≠ 0 ∧ (((125 : Nat) : Int) - (100 : Nat)).natAbs ≤ 100 / 4 ∧
      (99 : Nat) / 4 < (((125 : Nat) : Int) - (99 : Nat)).natAbs ∧ (1 : Nat) < 2 := by decide

theorem witness_RampAndPwmSteps :
    let o : DriveOut := { DriveOut.reset with step := some 40, pwm := some 50 }
    o.step = some 40 ∧ o.pwm.isSome = true ∧ DriveOut.reset.step = none ∧ DriveOut.reset.pwm = none := by decide

theorem witness_SupplySampleClassifiesAndCutsOff :
    driving.supply.hist ≠ [] ∧ driving.supply.state ≠ .cutoff ∧
      ({ driving with supply := ⟨0, [5999, 5999, 5999, 5999], 5999, .low, 0⟩ } : State).supply.hist ≠ [] ∧
      ((⟨0, [5999, 5999, 5999, 5999], 5999, .low, 0⟩ : Supply).sample 5999).state = .cutoff ∧
      ((⟨0, [6000, 6000, 6000, 6000], 6000, .low, 0⟩ : Supply).sample 6000).state = .low ∧
      (driving.ch 0).ms.state.holding = true ∧ (driving.ch 1).ms.state.holding = false ∧
      ((dwell0 (.fault .drift) none).ch 0).successor = some (.fault .drift) := by decide

theorem witness_FaultLineAssertionAndRelease :
    driving.lines[(0 : LineId)].asserted = false ∧ inSet driving.device.maps[(0 : LineId)] 0 = true ∧
      (driving.ch 0).ms.state ≠ .disabled ∧ (driving.ch 0).ms.state ≠ .fault ∧
      inSet driving.device.maps[(0 : LineId)] 2 = false ∧ (2 : ChanId) ∉ driving.arbiter.queue.map QueueEntry.chan ∧
      (asserted (at0 .fault none)).lines[(0 : LineId)].asserted = true := by decide

/-! ## Witnesses of the further parts of the statements -/

/-- Channel 0 with its decoder changed. -/
def decoder0 (f : Decoder → Decoder) : State := with0 (fun k => { k with pd := f k.pd })

theorem witness_EmptyQueueStepFollowsTheClock_microsecond :
    ((decoder0 (fun d => { d with sampleIn := 1 })).ch 0).pd.sampleIn ≤ 1 ∧
      1 < ((decoder0 (fun d => { d with sampleIn := 2 })).ch 0).pd.sampleIn ∧
      2 ≤ ((decoder0 (fun d => { d with overflow := 2 })).ch 0).pd.overflow ∧ (State.reset.ch 0).pd.overflow < 2 ∧
      (State.reset.ch 0).pd.prescaler + 1 < (State.reset.ch 0).ms.active.get .captureTick ∧
      (let k := (decoder0 (fun d => { d with prescaler := 1, timer := 65534 })).ch 0
       k.ms.active.get .captureTick ≤ k.pd.prescaler + 1 ∧ k.pd.timer < 65535) ∧
      (let k := (decoder0 (fun d => { d with prescaler := 1, timer := 65535 })).ch 0
       k.ms.active.get .captureTick ≤ k.pd.prescaler + 1 ∧ 65535 ≤ k.pd.timer) ∧
      ({ State.reset with lineSampleIn := 1 } : State).lineSampleIn ≤ 1 ∧ 1 < State.reset.lineSampleIn := by decide

theorem reset_partitioned : Pool.reset.Partitioned := ⟨by decide, by decide⟩

theorem witness_FaultLineMapIsWritten_records :
    let s := asserted (State.reset.setCh 2 (seq0 .travel (some (.jog .opening))))
    s.hearing ∧ s.link.locked = false ∧ (0x44 : Byte).toNat = 0x44 + (0 : LineId).val ∧
      s.lines[(0 : LineId)].asserted = true ∧ s.pool.Partitioned ∧
      s.faultable (BitVec.ofNat 8 (0x07 : Word16).toNat &&& ~~~s.device.maps[(0 : LineId)]) = [2] :=
  ⟨⟨by decide, by decide⟩, by decide, by decide, by decide, reset_partitioned, by decide⟩

theorem witness_EnableAndDisable_fault :
    (at0 .fault none).hearing ∧ (0 : Byte).toNat = (0 : ChanId).val ∧ ((at0 .fault none).ch 0).ms.state = .fault :=
  ⟨with0_hearing _, by decide, by decide⟩

theorem witness_CountAtRestMovesThePosition_queued :
    let kept := (known0 .queued (some (.express .closing)) (-63)).ch 0
    let jog := (known0 .queued (some (.jog .closing)) (-64)).ch 0
    let s := known0 .queued (some (.express .closing)) (-64)
    kept.ms.state = .queued ∧ kept.countInBounds .a ∧ ¬jog.countInBounds .a ∧
      ¬jog.ms.motion.any Motion.unattendedClose = true ∧ (s.ch 0).ms.state = .queued ∧ (s.ch 0).pd.known = true ∧
      ¬(s.ch 0).countInBounds .a ∧ (s.ch 0).ms.motion.any Motion.unattendedClose = true ∧
      (0 : ChanId) ∉ s.arbiter.holders := by
  simp only [Chan.countInBounds]; decide

theorem witness_IllegalTransitionRaisesGlitch_queued :
    let lost := (glitch0 .queued 0).ch 0
    let s := with0 (fun _ =>
      let k := (seq0 .queued (some (.express .closing))).setPosition 5
      { k with ms := { k.ms with active := k.ms.active.set .maskGlitch 0 } })
    lost.ms.active.get .maskGlitch ≠ 1 ∧ lost.ms.state = .queued ∧ lost.pd.known = false ∧
      (s.ch 0).ms.active.get .maskGlitch ≠ 1 ∧ (s.ch 0).ms.state = .queued ∧ (s.ch 0).pd.known = true ∧
      (s.ch 0).ms.motion.any Motion.unattendedClose = true ∧ (0 : ChanId) ∉ s.arbiter.holders := by decide

/-- Channel 0 driven by a motion at a position, its ring full, with one active parameter and its overflow count set. -/
def counting0 (st : ChState) (m : Option Motion) (p : Int) (q : ChanParam) (v overflow : Nat) : State :=
  with0 (fun _ => let k := (seq0 st m).setPosition p
    { k with pd := { k.pd with ring := [10, 11, 12, 13], overflow := overflow }
             ms := { k.ms with active := k.ms.active.set q v, backoff := some ⟨401, some 5⟩ } })

/-- A count of channel 0 in each state that drives, one that asks for an evaluation, and one that leaves its bounds. -/
theorem witness_CountOfADrive_decoder :
    ((counting0 .backoff none 400 .endMode 0 0).ch 0).ms.state = .backoff ∧
      ((counting0 .startup (some (.jog .opening)) 400 .endMode 0 0).ch 0).ms.motion.map Motion.dir = some .opening ∧
      (let k := (counting0 .travel (some (.express .closing)) (-63) .endMode 0 0).ch 0
       k.ms.state = .travel ∧ k.ms.motion.map Motion.dir = some .closing ∧ k.countDir .a = .closing ∧
         k.pd.known = true ∧ k.countInBounds .a ∧ (pushLast 4 k.pd.ring 1).length = 4) ∧
      (let k := (counting0 .travel (some (.express .closing)) (-64) .endMode 0 0).ch 0
       ¬k.countInBounds .a ∧ k.ms.motion.any Motion.unattendedClose = true) := by
  simp only [Chan.countInBounds]; decide

/-- Counts of channel 0 in TRAVEL: against the drive, at no end, at each end, leaving its bounds, and with an overflow. -/
theorem witness_CountOfADrive_ends :
    ((counting0 .travel (some (.jog .opening)) 400 .endMode 0 0).ch 0).countDir .a ≠ Motion.dir (.jog .opening) ∧
      ((counting0 .travel (some (.jog .opening)) 400 .endMode 0 0).ch 0).countDir .b = Motion.dir (.jog .opening) ∧
      ((counting0 .travel (some (.jog .opening)) 798 .endMode 0 0).ch 0).counted .b < 800 ∧
      (let k := (counting0 .travel (some (.jog .closing)) 5 .endMode 1 0).ch 0
       Motion.seeking (.jog .closing) = false ∧ k.ms.active.get .endMode = 1 ∧ k.countInBounds .a ∧
         k.counted .a = (k.ms.active.get .softClose : Int)) ∧
      ((counting0 .travel (some (.goTo .closing 399)) 400 .endMode 0 0).ch 0).counted .a = (399 : Nat) ∧
      ((counting0 .travel (some (.goTo .opening 401)) 400 .endMode 0 0).ch 0).counted .b = (401 : Nat) ∧
      ((counting0 .travel (some (.express .opening)) 799 .endMode 0 0).ch 0).counted .b = 800 ∧
      ((counting0 .travel (some (.normalize .openUp)) 799 .endMode 0 0).ch 0).counted .b = 800 ∧
      (let k := (counting0 .travel (some (.express .closing)) (-64) .maskPeriodOverflow 0 1).ch 0
       k.pd.known = true ∧ ¬k.countInBounds .a ∧ Motion.unattendedClose (.express .closing) = true ∧
         k.pd.overflow ≠ 0 ∧ k.ms.active.get .maskPeriodOverflow ≠ 1) ∧
      (let k := (counting0 .travel (some (.express .opening)) 799 .maskPeriodOverflow 0 1).ch 0
       k.pd.known = true ∧ k.countInBounds .b ∧ k.pd.overflow ≠ 0 ∧ k.ms.active.get .maskPeriodOverflow ≠ 1) := by
  simp only [Chan.countInBounds]; decide

/-- Counts of channel 0 in BACKOFF: the target met exactly, missed by one, and each with an overflow. -/
theorem witness_CountOfADrive_backoff :
    (let k := (counting0 .backoff none 400 .maskPeriodOverflow 0 0).ch 0
     k.ms.state = .backoff ∧ k.ms.backoff = some ⟨401, some 5⟩ ∧ k.pd.known = true ∧ k.countInBounds .b ∧
       401 ≤ k.counted .b ∧ ¬k.pd.overflow ≠ 0) ∧
    (let k := (counting0 .backoff none 399 .maskPeriodOverflow 0 1).ch 0
     ¬401 ≤ k.counted .b ∧ k.pd.overflow ≠ 0 ∧ k.ms.active.get .maskPeriodOverflow ≠ 1) ∧
    401 ≤ ((counting0 .backoff none 400 .maskPeriodOverflow 0 1).ch 0).counted .b := by
  simp only [Chan.countInBounds]; decide

/-- An evaluation's inputs with one parameter set. -/
def evalWith (i : EvalInput) (p : ChanParam) (v : Nat) : EvalInput := { i with active := i.active.set p v }

/-- For each ending of the stages inputs that lead there, at the bounds of supply, voltage, period and excess. -/
theorem witness_EvaluationStagesComputeTheExcess_endings :
    (evalWith { evalIn 1024 with overflowed := true } .maskPeriodOverflow 0).run.ending = .stopped .periodOverflow ∧
      (evalWith { evalIn 1024 with u := 5999 } .maskSupplyRange 0).run.ending = .stopped .supplyRange ∧
      (evalWith { evalIn 1024 with u := 18000 } .maskSupplyRange 0).run.raised = [] ∧
      (evalIn 243).run.ending = .diverted ∧ (evalIn 244).run.ending ≠ .diverted ∧
      (evalWith (evalIn 243) .maskLowDrive 0).run.ending = .stopped .lowDrive ∧
      (evalWith { evalIn 1024 with period := 70217 } .maskPeriodOverflow 0).run.ending = .stopped .periodOverflow ∧
      (evalWith { evalIn 1024 with period := 70216 } .maskPeriodOverflow 0).run.pn = some 65535 ∧
      { evalIn 1024 with cell := Cell.blank }.run.ending = .complete 0 .neutral ∧
      (evalWith { evalIn 1024 with cell := Cell.blank } .maskNoReference 0).run.ending = .stopped .noReference ∧
      (evalWith { evalIn 1024 with cell := Cell.blank, filling := true } .maskNoReference 0).run.ending =
        .complete 0 .neutral ∧
      { evalIn 1024 with period := 70216, cell := ⟨.valid, 31, 1, 0⟩ }.run = ⟨[], some 65535, .complete 2047 .valid⟩ ∧
      { evalIn 1024 with period := 70216, gain := 9 }.run = ⟨[.effortSat], some 65535, .complete 2047 .valid⟩ ∧
      (evalWith { evalIn 1024 with period := 70216, gain := 9 } .maskEffortSat 0).run.ending = .stopped .effortSat := by
  decide +kernel

/-- Channel 0 with an evaluation request behind one of another channel, at a position with a cycle period. -/
def queued0 (st : ChState) (inTravel : Bool) (p : Int) (period : Nat) (f : Chan → Chan) : State :=
  { with0 (fun _ => let k := closable st p 0
      f { k with out := { k.out with applied := 1024 }, ms := { k.ms with motion := some (.express .closing) } }) with
    effort := { Effort.reset with requests := [⟨1, 0, true, 0, 1, false⟩, ⟨0, 0, inTravel, p, period, false⟩] } }

theorem witness_EvaluationStagesComputeTheExcess_effects :
    (∀ r ∈ [(⟨1, 0, true, 0, 1, false⟩ : EvalRequest)], r.chan ≠ 0) ∧
      (queued0 .travel true 8 215 id).effort.requests =
        [⟨1, 0, true, 0, 1, false⟩] ++ ⟨0, 0, true, 8, 215, false⟩ :: [] ∧
      0 = ((queued0 .travel true 8 215 id).ch 0).pd.drive ∧ ((queued0 .travel true 8 215 id).ch 0).ms.state = .travel ∧
      ((queued0 .startup false 7 215 id).ch 0).ms.state = .startup ∧
      ((queued0 .travel true 8 215 id).evalInput 0 ⟨0, 0, true, 8, 215, false⟩ 0).run.ending = .complete 0 .valid ∧
      ((queued0 .travel true 8 215 (fun k => { k with out := DriveOut.reset })).evalInput 0
        ⟨0, 0, true, 8, 215, false⟩ 0).run.ending = .diverted ∧
      ((queued0 .travel true 8 215 (fun k => { k with
          ms := { k.ms with active := k.ms.active.set .maskLowDrive 0 }, out := DriveOut.reset })).evalInput 0
        ⟨0, 0, true, 8, 215, false⟩ 0).run.ending = .stopped .lowDrive := by decide +kernel

/-- The window of channel 0 full, with a history and the override flag. -/
def full0 (history : List Bool) (override : Bool) : State :=
  queued0 .travel true 8 13929 (fun k => { k with
    ee := { k.ee with slots := Vector.replicate 8 ⟨400, .valid⟩, history := history }
    ms := { k.ms with override := override } })

/-- An evaluation at T_hard exactly with a full window; three of the newest four entries are 1, or one is. -/
theorem witness_DecisionFollowsThreshold_exec :
    let marked := [true, true, false, false, false, false, false, false]
    let s := full0 marked false
    let q : EvalRequest := ⟨0, 0, true, 8, 13929, false⟩
    s.effort.requests = [⟨1, 0, true, 0, 1, false⟩] ++ q :: [] ∧ 0 = (s.ch 0).pd.drive ∧ (s.ch 0).ms.state = .travel ∧
      (s.evalInput 0 q (cellIndex 800 8)).run.ending = .complete 400 .valid ∧ ((s.ch 0).ms.active.get .tHard : Int) = 400 ∧
      ((s.ch 0).ms.active.get .zSeal : Int) = 8 ∧ (∀ i : Fin 8, (s.ch 0).ee.slots[i].tag ≠ .empty) ∧
      (s.decide102 0 .pinch 400).1 = .pinch .pinchEffort ∧
      ((full0 (List.replicate 8 false) false).decide102 0 .pinch 400).1 = .clear ∧
      ((full0 marked true).ch 0).ms.override = true := by decide +kernel

/-- A channel that fills: cell 0 measured and EMPTY, cell 1 required, EMPTY and without measurements; and a taint. -/
theorem witness_CellAdaptation_profile :
    let k := { closable .travel 0 0 with rps := { Profile.reset with
      scratch := (Vector.replicate 64 (⟨0, 0⟩ : ScratchPair)).set 0 ⟨500, 4⟩ } }
    k.ms.taint = false ∧ k.setTaint.ms.taint = true ∧ k.rps.scratch[(0 : Fin 64)].count ≠ 0 ∧
      k.rps.cells[(0 : Fin 64)].state = .empty ∧ k.rps.scratch[(1 : Fin 64)].count = 0 ∧
      k.rps.cells[(1 : Fin 64)].state = .empty ∧
      k.ms.active.get .zSeal / ((k.ms.active.get .travelLength + 63) / 64) ≤ 1 ∧
      1 ≤ min 63 (k.ms.active.get .travelLength / ((k.ms.active.get .travelLength + 63) / 64)) := by decide +kernel

/-- The output modes, and the two sides of the end of the pulse at half duty. -/
theorem witness_RampAndPwmSteps_pins :
    let o : DriveOut := { DriveOut.reset with mode := .driveClose, applied := 512, pwm := some 24 }
    24 * 1024 < o.applied * 50 ∧ ¬25 * 1024 < o.applied * 50 ∧ DriveOut.reset.mode = .off := by decide

/-- A sending transmitter, and a supply that leaves or enters NORMAL or CUTOFF at a bound. -/
theorem witness_SupplySampleClassifiesAndCutsOff_notices :
    let busy := withLink (fun l => { l with sending := some ⟨true, [], 5⟩ })
    busy.noticesWait ∧ busy.supply.hist ≠ [] ∧ (busy.supply.sample 12600).state = busy.supply.state ∧
      ((⟨0, [8999, 8999, 8999, 8999], 9000, .normal, 0⟩ : Supply).sample 8999).state = .low ∧
      ((⟨0, [5999, 5999, 5999, 5999], 6000, .low, 0⟩ : Supply).sample 5999).state = .cutoff :=
  ⟨.inl rfl, by decide⟩

/-- The supply comes back to NORMAL at its bound. -/
theorem witness_SupplySampleClassifiesAndCutsOff_grants :
    let s : State := { State.setCh (driving.setCh 1 (seq0 .queued (some (.jog .opening)))) 2 (seq0 .idle none) with
      supply := ⟨0, [9300, 9300, 9300, 9300], 9299, .low, 0⟩, arbiter := ⟨[0], [⟨1, true⟩]⟩ }
    s.supply.hist ≠ [] ∧ s.SlotLaw ∧ s.ArbiterLaw ∧ s.supply.state ≠ .normal ∧ (s.supply.sample 9300).state = .normal ∧
      min (s.device.slotCount - s.arbiter.holders.length) s.arbiter.queue.length = 1 :=
  ⟨by decide, ⟨by decide, by decide, by decide, by decide⟩, ⟨by decide, by decide, by decide, by decide, by simp [heldFirst]⟩,
    by decide, by decide, by decide⟩

theorem witness_FaultLineAssertionAndRelease_records :
    driving.lines[(0 : LineId)].asserted = false ∧ driving.pool.Partitioned ∧
      driving.faultable driving.device.maps[(0 : LineId)] = [0] ∧
      (withLink (fun l => { l with replies := [aReply] })).noticesWait :=
  ⟨by decide, reset_partitioned, by decide, .inr (by decide)⟩

/-- Channel 0 IDLE and mapped by an active line is faulted at the first samples, channel 1 DISABLED and mapped is not. -/
theorem witness_PreserveResetKeeps_samples :
    let s := preserving (pinned (at0 .idle none))
    s.link.sending = some ⟨true, [], 0⟩ ∧ s.link.replies.head? = some ⟨0x92, 0, [0, 0], some .preserve⟩ ∧
      inSet s.device.maps[(0 : LineId)] 1 = true ∧ allChans.filter (fun c => decide ((s.ch c).ms.state ≠ .disabled) &&
        allLines.any (fun l => s.lines[l].pin && inSet s.device.maps[l] c)) = [0] := by decide +kernel

theorem witness_LeaseAndBackoffTimersExpire_notices :
    let busy := fun st => { leased0 st with link := (withLink (fun l => { l with replies := [aReply] })).link }
    ((busy .queued).ch 0).ms.lease.isSome = true ∧ (busy .queued).noticesWait ∧
      ((busy .queued).ch 0).ms.state = .queued ∧ (0 : ChanId) ∉ (busy .queued).arbiter.holders ∧
      ((busy .dwell).ch 0).ms.lease.isSome = true ∧ (busy .dwell).noticesWait ∧
      ((busy .dwell).ch 0).ms.state ≠ .queued :=
  ⟨by decide, .inr (by decide), by decide, by decide, by decide, .inr (by decide), by decide⟩

/-- Both slots held, channel 0 in DWELL by one of them, channel 2 QUEUED. -/
def releasing (k : Chan) : State :=
  { State.setCh (State.setCh (State.reset.setCh 0 k) 1 (seq0 .travel (some (.jog .closing)))) 2
      (seq0 .queued (some (.jog .opening))) with arbiter := ⟨[0, 1], [⟨2, true⟩]⟩ }

/-- The four releases of an expiry, with the supply NORMAL, and one with it HIGH. -/
theorem witness_DwellExpiryEntersTheSuccessor_grants :
    let chan := fun (s : State) => s.ch 0
    (∀ k : Chan, k ∈ [chan (dwell0 (.idle .stopped) none), chan (dwell0 (.fault .drift) none),
        chan (dwell0 .startup (some (.express .closing))), chan (toBackoff0 320 320)] →
      (releasing k).SlotLaw ∧ (releasing k).ArbiterLaw ∧ (releasing k).NoneWaits ∧ ((releasing k).ch 0).ms.state = .dwell) ∧
      (chan (dwell0 (.idle .stopped) none)).successor = some (.idle .stopped) ∧
      (chan (dwell0 (.fault .drift) none)).successor = some (.fault .drift) ∧
      (chan (dwell0 .startup (some (.express .closing)))).successor = some .startup ∧
      Motion.unattendedClose (.express .closing) = true ∧
      (chan (dwell0 .startup (some (.express .closing)))).pd.known = false ∧
      (chan (toBackoff0 320 320)).successor = some .backoff ∧ (chan (toBackoff0 320 320)).pd.known = true ∧
      (releasing (chan (dwell0 (.idle .stopped) none))).supply.state = .normal ∧
      (releasing (chan (dwell0 (.idle .stopped) none))).arbiter.queue = [⟨2, true⟩] ∧
      ({ releasing (chan (dwell0 (.idle .stopped) none)) with supply := ⟨0, [16001], 16001, .high, 0⟩ } :
        State).supply.state ≠ .normal := by
  refine ⟨fun k hk => ?_, by decide⟩
  simp only [List.mem_cons, List.not_mem_nil, or_false] at hk
  rcases hk with rfl | rfl | rfl | rfl <;>
    exact ⟨⟨by decide, by decide, by decide, by decide⟩,
      ⟨by decide, by decide, by decide, by decide, List.pairwise_singleton _ _⟩, fun h => absurd h (by decide), by decide⟩

/-- An excess one above T_hard, one of an evaluation with a condition raised, and one of an overflowed mark. -/
theorem witness_HardLimitPinchesAtOneCount_marked :
    let s := fun period override => queued0 .travel true 8 period (fun k => { k with
      ms := { k.ms with override := override } })
    let run := fun (q : EvalRequest) => ((s q.period false).evalInput 0 q (cellIndex 800 8)).run
    (s 13963 false).effort.requests = [⟨1, 0, true, 0, 1, false⟩] ++ ⟨0, 0, true, 8, 13963, false⟩ :: [] ∧
      0 = ((s 13963 true).ch 0).pd.drive ∧ ((s 13963 true).ch 0).ms.state = .travel ∧
      run ⟨0, 0, true, 8, 13963, false⟩ = ⟨[], some 13032, .complete 401 .valid⟩ ∧
      run ⟨0, 0, true, 8, 80000, true⟩ = ⟨[.periodOverflow], some 65535, .complete 2041 .valid⟩ ∧
      (((s 13963 true).ch 0).ms.active.get .tHard : Int) = 400 ∧
      (((s 13963 true).ch 0).ms.active.get .zSeal : Int) = 8 ∧ ((s 13963 true).ch 0).ms.override = true := by
  decide +kernel

/-- A closing GOTO already met that joins a SOFT motion below Soft-close (log 35). -/
theorem witness_MoveActsOnARunningMotion_met :
    let k := { closable .travel 4 0 with ms := { (closable .travel 4 0).ms with
      motion := some (.express .closing), active := (closable .travel 4 0).ms.active.set .endMode 1 } }
    k.judgeMove .normal (.goTo .closing 4) = none ∧ k.atTarget (.goTo .closing 4) = true ∧
      k.travelEnd (.goTo .closing 4) = some .closedEnd := by decide +kernel

/-- A record of each kind of cause, with eight slots and eight entries. -/
theorem witness_IncidentReadAndRelease_tail :
    let slot : Fin 8 → Slot := fun i => if i = 0 then ⟨-3, .neutral⟩ else if i = 7 then ⟨401, .valid⟩ else ⟨0, .empty⟩
    let past : Fin 8 → Bool := fun i => decide (i = 1)
    let e : Evidence := ⟨⟨some (-3, .neutral), some 5, none, some 300⟩, (List.finRange 8).map slot, (List.finRange 8).map past⟩
    let i : IncidentCause → Incident := fun cause => { Incident.blank with cause := cause, evidence := some e }
    (i (.bridge 3)).tail = [3] ∧ (i (.condition .drift)).tail = [6] ∧ (i .overrideStop).evidence = some e ∧
      (i .pinchHard).tail = [0x2D, 5, 0xFD, 0xFF, 0, 0, 44, 1, 0xFD, 0xFF, 0, 0, 0, 0, 0, 0, 0, 0, 0, 0, 0, 0, 0x91, 1,
        0x02, 0x40, 0x02] := by decide +kernel

/-- A DWELL that ends in STARTUP with the supply HIGH, and one that ends there with Ramp time 0 in SEEK. -/
theorem witness_DwellExpiryEntersTheSuccessor_drive :
    let high : Supply := ⟨0, [17000], 17000, .high, 0⟩
    let begins := fun (p : ChanParam) (v : Nat) (m : Motion) =>
      ((dwell0 .startup (some m)).ch 0 |> fun k => ({ k with ms := { k.ms with
        pending := k.ms.pending.set p v } } : Chan).enterStartup high m).out
    ((dwell0 .startup (some (.express .closing))).ch 0).successor = some .startup ∧
      (begins .startDuty 307 (.express .closing)).ramp = 307 ∧ (begins .startDuty 307 (.express .closing)).step = some 1 ∧
      (begins .rampTime 0 (.express .closing)).applied = 963 ∧ (begins .rampTime 0 (.normalize .seek)).stepIn = 0 ∧
      (begins .openingDuty 500 (.express .opening)).target = 500 := by
  decide +kernel

end Sys2Proof.Tests
end

section
/-! PROOFS. CLEAR_CONDITIONS (R89): its owner by the channel number, then the request. -/

namespace Sys2Proof.Machine

theorem exec_clearConditions (tag ch : Byte) (s : State) :
    exec (.clearConditions tag ch) s = request s 0x09 tag (reqClearConditions ch) := rfl

theorem reqClearConditions_badChannel {ch : Byte} (s : State) (h : 8 ≤ ch.toNat) :
    reqClearConditions ch s = (answer .badChannel [ch], s) := by
  simp only [reqClearConditions, chanOf_none h]

theorem reqClearConditions_chan {ch : Byte} {c : ChanId} (s : State) (h : ch.toNat = c.val) :
    reqClearConditions ch s =
      (answer .ok [ch], s.setCh c { s.ch c with ee := { (s.ch c).ee with sticky := .clear } }) := by
  simp only [reqClearConditions, chanOf_eq h, State.modCh_eq]

/-- Settles O30: the owner reads neither the lock nor the channel's state, so the channel number alone decides. -/
theorem clearConditionsClearsStickyFlags : Obligations.ClearConditionsClearsStickyFlags := by
  intro s tag ch hearing
  rw [exec_clearConditions]
  constructor
  · intro outOfRange
    exact request_answered hearing (reqClearConditions_badChannel s outOfRange)
  · intro c isChan
    exact request_answered hearing (reqClearConditions_chan s isChan)

end Sys2Proof.Machine
end

section
/-! PROOFS. Profile completeness and fill progress (R119): what makes a cell required, what the count of the required cells
is, and how completeness and fill progress read them. -/

namespace Sys2Proof.Machine

/-- The numbers from a to b, both included, among the first n. -/
theorem countP_range_between (a b n : Nat) :
    (List.range n).countP (fun i => decide (a ≤ i ∧ i ≤ b)) = min n (b + 1) - a := by
  induction n with
  | zero => simp
  | succ n ih =>
    rw [List.range_succ, List.countP_append, ih, List.countP_singleton]
    by_cases within : a ≤ n ∧ n ≤ b
    · simp only [within, and_self, decide_true, if_true]
      omega
    · simp only [within, decide_false, Bool.false_eq_true, if_false]
      omega

@[simp] theorem mem_allCells (k : Fin 64) : k ∈ allCells := List.mem_finRange k

theorem countP_allCells_val (p : Nat → Bool) : allCells.countP (fun k => p k.val) = (List.range 64).countP p := by
  rw [← List.map_coe_finRange_eq_range, List.countP_map]
  rfl

theorem cellRequired_iff {l z : Nat} {k : Fin 64} :
    cellRequired l z k = true ↔ z / cellWidth l ≤ k.val ∧ k.val ≤ min 63 (l / cellWidth l) :=
  decide_eq_true_iff

theorem profileComplete_iff {cells : Vector Cell 64} {l z : Nat} :
    profileComplete cells l z = true ↔ ∀ k : Fin 64, cellRequired l z k = true → cells[k].state = .valid := by
  simp only [profileComplete, List.all_eq_true, mem_allCells, true_imp_iff, Bool.or_eq_true, Bool.not_eq_true',
    decide_eq_true_iff, ← Bool.not_eq_true, ← imp_iff_not_or]

/-- The VALID cells are counted among the required ones. -/
theorem fillProgress_eq_length_filter (cells : Vector Cell 64) (l z : Nat) :
    fillProgress cells l z =
      ((allCells.filter (cellRequired l z)).filter (fun k => decide (cells[k].state = .valid))).length := by
  simp only [fillProgress, List.filter_filter, Bool.and_comm]

theorem fillProgress_eq_countP (cells : Vector Cell 64) (l z : Nat) :
    fillProgress cells l z = allCells.countP (fun k =>
      decide (z / cellWidth l ≤ k.val ∧ k.val ≤ min 63 (l / cellWidth l) ∧ cells[k].state = .valid)) := by
  simp only [fillProgress, cellRequired, ← List.countP_eq_length_filter, ← Bool.decide_and, and_assoc]

/-- The progress reaches the count of required cells just where none of them is left EMPTY. -/
theorem profileComplete_iff_fillProgress {cells : Vector Cell 64} {l z : Nat} :
    profileComplete cells l z = true ↔ fillProgress cells l z = requiredCount l z := by
  rw [profileComplete_iff, fillProgress_eq_length_filter, requiredCount, List.length_filter_eq_length_iff]
  simp only [List.mem_filter, mem_allCells, true_and, decide_eq_true_iff]

theorem requiredCount_eq (l z : Nat) :
    requiredCount l z = min 63 (l / cellWidth l) + 1 - z / cellWidth l := by
  have count := countP_allCells_val (fun i => decide (z / cellWidth l ≤ i ∧ i ≤ min 63 (l / cellWidth l)))
  have upTo63 : min 64 (min 63 (l / cellWidth l) + 1) = min 63 (l / cellWidth l) + 1 := by omega
  rw [countP_range_between, upTo63] at count
  rw [requiredCount, ← List.countP_eq_length_filter]
  exact count

/-- Settles O28: each clause is the lemma about its function, at the width Wc of R118. -/
theorem profileCompleteness : Obligations.ProfileCompleteness := by
  intro cells l z _ wc
  refine ⟨?_, profileComplete_iff_fillProgress, requiredCount_eq l z, ?_⟩
  · simp only [profileComplete_iff, cellRequired_iff, and_imp]
    rfl
  · exact congrArg Nat.cast (fillProgress_eq_countP cells l z)

end Sys2Proof.Machine
end

section
/-! PROOFS. Slot holders and the Slot count (R164): the law looks at the holders and the Slot count alone, a slot is
given only while one is free, and every operation, owner and event keeps the law. -/

namespace Sys2Proof.Machine

/-! ## The list of holders -/

theorem pairwise_insertChan (c : ChanId) {l : List ChanId} (sorted : l.Pairwise (· < ·)) :
    (insertChan c l).Pairwise (· < ·) := by
  induction l with
  | nil => simp [insertChan]
  | cons d ds ih =>
    obtain ⟨below, sortedTail⟩ := List.pairwise_cons.1 sorted
    unfold insertChan
    split
    · rename_i hlt
      refine List.pairwise_cons.2 ⟨fun x hx => ?_, sorted⟩
      rcases List.mem_cons.1 hx with rfl | hx
      · exact hlt
      · exact hlt.trans (below x hx)
    · split
      · exact sorted
      · rename_i hle hne
        refine List.pairwise_cons.2 ⟨fun x hx => ?_, ih sortedTail⟩
        rcases (mem_insertChan c x ds).1 hx with rfl | hx
        · exact lt_of_le_of_ne (not_lt.1 hle) (Ne.symm hne)
        · exact below x hx

theorem length_insertChan_le (c : ChanId) (l : List ChanId) : (insertChan c l).length ≤ l.length + 1 := by
  induction l with
  | nil => simp [insertChan]
  | cons d ds ih =>
    unfold insertChan
    split
    · simp
    · split <;> simp [ih]

/-! ## Slots and grants (R164, R165, R168)

Each lemma `State.SlotLaw.f` says that the operation `f` keeps the law. -/

theorem State.SlotLaw.of_frame {s t : State} (h : s.SlotLaw) (holders : t.arbiter.holders = s.arbiter.holders)
    (count : t.device.slotCount = s.device.slotCount) : t.SlotLaw := by
  unfold State.SlotLaw
  rw [holders, count]
  exact h

/-- With no holder only the range of the Slot count is left to show. -/
theorem State.SlotLaw.of_noHolders {s : State} (none : s.arbiter.holders = []) (one : 1 ≤ s.device.slotCount)
    (four : s.device.slotCount ≤ 4) : s.SlotLaw := by
  unfold State.SlotLaw
  rw [none]
  exact ⟨.nil, Nat.zero_le _, one, four⟩

theorem State.SlotLaw.setCh {s : State} {c : ChanId} {k : Chan} (h : s.SlotLaw) : (s.setCh c k).SlotLaw := h

theorem State.SlotLaw.modCh {s : State} {c : ChanId} {f : Chan → Chan} (h : s.SlotLaw) : (s.modCh c f).SlotLaw := h

theorem State.SlotLaw.countRace {s : State} (h : s.SlotLaw) : s.countRace.SlotLaw := h

theorem State.SlotLaw.foldl {α : Type} {f : State → α → State} (keeps : ∀ s a, s.SlotLaw → (f s a).SlotLaw)
    {s : State} (xs : List α) (h : s.SlotLaw) : (xs.foldl f s).SlotLaw :=
  List.foldlRecOn xs f h (fun u hu a _ => keeps u a hu)

theorem State.SlotLaw.grant {s : State} {c : ChanId} (h : s.SlotLaw) (free : s.canGrant = true) :
    (s.grant c).SlotLaw := by
  obtain ⟨sorted, -, one, four⟩ := h
  have room : s.arbiter.holders.length < s.device.slotCount := by
    simp only [State.canGrant, Bool.and_eq_true, decide_eq_true_eq] at free
    exact free.1
  unfold State.grant
  split
  · exact ⟨pairwise_insertChan c sorted, (length_insertChan_le c _).trans room, one, four⟩
  · exact ⟨sorted, room.le, one, four⟩

theorem State.SlotLaw.grantHeads (n : Nat) {s : State} (h : s.SlotLaw) : (State.grantHeads n s).SlotLaw := by
  induction n generalizing s with
  | zero => exact h
  | succ n ih =>
    unfold State.grantHeads
    split
    · exact h
    · split
      · rename_i e rest _ free
        have unqueued : State.SlotLaw { s with arbiter := { s.arbiter with queue := rest } } := h.of_frame rfl rfl
        exact ih (unqueued.grant free)
      · exact h

theorem State.SlotLaw.grantPass {s : State} (h : s.SlotLaw) : s.grantPass.SlotLaw := h.grantHeads _

theorem State.SlotLaw.detach {s : State} {c : ChanId} (h : s.SlotLaw) : (s.detach c).SlotLaw := by
  obtain ⟨sorted, room, one, four⟩ := h
  exact ⟨sorted.filter _, (List.length_filter_le _ _).trans room, one, four⟩

theorem State.SlotLaw.leaveArbiter {s : State} {c : ChanId} (h : s.SlotLaw) : (s.leaveArbiter c).SlotLaw := by
  unfold State.leaveArbiter
  split
  · exact h.detach.grantPass
  · exact h.detach

theorem State.SlotLaw.askSlot {s : State} {c : ChanId} {m : Motion} (h : s.SlotLaw) : (s.askSlot c m).SlotLaw := by
  unfold State.askSlot
  split
  · rename_i free
    exact h.grant (Bool.and_eq_true_iff.1 free).1
  · exact State.SlotLaw.grantPass (h.of_frame rfl rfl)

/-! ## Ends of motions and stops -/

theorem State.SlotLaw.takeRecordHere {s : State} {c : ChanId} {q : IncidentCause} (h : s.SlotLaw) :
    (s.takeRecordHere c q).SlotLaw := h.of_frame (by simp) (by simp)

theorem State.SlotLaw.endIdle {s : State} {c : ChanId} {r : MotionResult} (h : s.SlotLaw) : (s.endIdle c r).SlotLaw :=
  State.SlotLaw.leaveArbiter (h.of_frame rfl rfl)

theorem State.SlotLaw.stopToFault {s : State} {c : ChanId} {q : FaultCause} (h : s.SlotLaw) :
    (s.stopToFault c q).SlotLaw := h.of_frame (by simp) (by simp)

theorem State.SlotLaw.enterFault {s : State} {c : ChanId} {q : FaultCause} (h : s.SlotLaw) :
    (s.enterFault c q).SlotLaw := h.stopToFault.leaveArbiter

theorem State.SlotLaw.dwellIdle {s : State} {c : ChanId} {r : MotionResult} (h : s.SlotLaw) :
    (s.dwellIdle c r).SlotLaw := h.modCh

theorem State.SlotLaw.conditionStop {s : State} {c : ChanId} {x : Condition} (h : s.SlotLaw) :
    (s.conditionStop c x).SlotLaw := by
  unfold State.conditionStop
  split
  · exact h.takeRecordHere.modCh
  · exact h

theorem State.SlotLaw.closedEnd {s : State} {c : ChanId} (h : s.SlotLaw) : (s.closedEnd c).SlotLaw := by
  have drift : ∀ f g, (((s.modCh c f).takeRecordHere c (.condition .drift)).modCh c g).SlotLaw :=
    fun _ _ => h.modCh.takeRecordHere.modCh
  unfold State.closedEnd
  dsimp only
  split
  · exact h.modCh
  · split
    · exact h.modCh
    · split
      · exact h.modCh
      · split
        · exact h.modCh
        · exact drift _ _

theorem State.SlotLaw.pinch {s : State} {c : ChanId} {q : IncidentCause} {p : Int} (h : s.SlotLaw) :
    (s.pinch c q p).SlotLaw := by
  obtain ⟨-, -, -, arbiter, device, -⟩ := s.pinch_frame c q p
  exact h.of_frame (by rw [arbiter]) (by rw [device])

theorem State.SlotLaw.closingStall {s : State} {c : ChanId} (h : s.SlotLaw) : (s.closingStall c).SlotLaw := by
  unfold State.closingStall
  dsimp only
  split
  · exact h.pinch
  · split
    · exact h.dwellIdle
    · exact h.closedEnd

theorem State.SlotLaw.stall {s : State} {c : ChanId} (h : s.SlotLaw) : (s.stall c).SlotLaw := by
  unfold State.stall
  dsimp only
  split
  case h_1 => split; exacts [h.modCh, h.dwellIdle]
  case h_2 =>
    split
    · exact h.modCh
    · split
      · exact h.closingStall
      · exact h.dwellIdle
  case h_3 => exact h.dwellIdle
  case h_4 => exact h

theorem State.SlotLaw.losePositionQueued {s : State} {c : ChanId} (h : s.SlotLaw) :
    (s.losePositionQueued c).SlotLaw := by
  unfold State.losePositionQueued
  dsimp only
  split
  · exact h.endIdle
  · exact h

theorem State.SlotLaw.takeEnd {s : State} {c : ChanId} (e : TravelEnd) (h : s.SlotLaw) : (s.takeEnd c e).SlotLaw := by
  cases e with
  | closedEnd => exact h.closedEnd
  | idle r => exact h.dwellIdle
  | openDone => exact h.modCh

/-! ## Counts and stalls -/

theorem State.SlotLaw.progress {s : State} {c : ChanId} {commanded : Bool} (h : s.SlotLaw) :
    (s.progress c commanded).SlotLaw := by
  unfold State.progress
  dsimp only
  split
  · split
    · exact h.modCh.takeEnd _
    · exact h.modCh
  · exact h

theorem State.SlotLaw.runningReport {s : State} {c : ChanId} {commanded lost overflow : Bool} (h : s.SlotLaw) :
    (s.runningReport c commanded lost overflow).SlotLaw := by
  unfold State.runningReport
  dsimp only
  generalize (lost && (s.ch c).ms.motion.any Motion.unattendedClose) = lostStop
  cases lostStop with
  | true =>
    simp only [↓reduceIte]
    cases overflow with
    | true => exact h.modCh.countRace.conditionStop
    | false => exact h.modCh.conditionStop
  | false =>
    simp only [Bool.false_eq_true, ↓reduceIte]
    cases overflow with
    | true =>
      dsimp only
      split
      · split
        · exact h.countRace.conditionStop
        · exact h.countRace.progress
      · exact h.conditionStop
    | false => exact h.progress

theorem State.SlotLaw.backoffReport {s : State} {c : ChanId} {overflow : Bool} (h : s.SlotLaw) :
    (s.backoffReport c overflow).SlotLaw := by
  unfold State.backoffReport
  split
  · exact h
  · exact h.dwellIdle
  · exact h.conditionStop
  · split
    · exact h.countRace.conditionStop
    · exact h.countRace.dwellIdle

theorem State.SlotLaw.countReport {s : State} {c : ChanId} {commanded lost overflow : Bool} (h : s.SlotLaw) :
    (s.countReport c commanded lost overflow).SlotLaw := by
  unfold State.countReport
  split
  case h_1 | h_2 => exact h.runningReport
  case h_3 => exact h.backoffReport
  case h_4 => split; exacts [h.losePositionQueued, h]
  all_goals exact h

theorem State.SlotLaw.count {s : State} {c : ChanId} {ph : HallPhase} (h : s.SlotLaw) : (s.count c ph).SlotLaw := by
  have decoded : (s.afterDecoder c ph).SlotLaw := by
    rw [State.afterDecoder_eq]
    exact h.of_frame rfl rfl
  rw [State.count_eq]
  exact decoded.countReport

theorem State.SlotLaw.illegalTransition {s : State} {c : ChanId} (h : s.SlotLaw) :
    (s.illegalTransition c).SlotLaw := by
  unfold State.illegalTransition
  dsimp only
  split
  · exact h.modCh
  · split
    · exact h.modCh.modCh.conditionStop
    · split
      · exact h.modCh.modCh.losePositionQueued
      · exact h.modCh.modCh

theorem State.SlotLaw.intervalOverflow {s : State} {c : ChanId} (h : s.SlotLaw) : (s.intervalOverflow c).SlotLaw := by
  unfold State.intervalOverflow
  dsimp only
  split
  · exact h
  · split
    · exact h.modCh.modCh.stall
    · exact h.modCh

theorem State.SlotLaw.watchdogExpiry {s : State} {c : ChanId} (h : s.SlotLaw) : (s.watchdogExpiry c).SlotLaw := by
  unfold State.watchdogExpiry
  split
  · exact h.modCh.stall
  · exact h

/-! ## Evaluations -/

theorem State.SlotLaw.stage6 {s : State} {c : ChanId} {p : Int} {e : Ending} (h : s.SlotLaw) :
    (s.stage6 c p e).2.2.SlotLaw := by
  obtain ⟨hold, history, lane, frame⟩ := s.stage6_frame c p e
  rw [frame]
  exact h.of_frame rfl rfl

theorem State.SlotLaw.taintByRoad {s : State} {c : ChanId} {inTravel : Bool} (h : s.SlotLaw) :
    (s.taintByRoad c inTravel).SlotLaw := by
  rw [State.taintByRoad_eq]
  exact h.setCh

theorem State.SlotLaw.judge {s : State} {c : ChanId} {q : EvalRequest} {cell : Fin 64} {e : Ending} (h : s.SlotLaw) :
    (s.judge c q cell e).2.SlotLaw := by
  unfold State.judge
  dsimp only
  split
  · exact h.modCh.stage6.modCh.taintByRoad
  · split
    · exact h.modCh.modCh.taintByRoad
    · exact h.modCh.taintByRoad

theorem State.SlotLaw.evaluate {s : State} {c : ChanId} {q : EvalRequest} (h : s.SlotLaw) :
    (s.evaluate c q).SlotLaw := by
  unfold State.evaluate
  dsimp only
  split
  · exact h.modCh.conditionStop
  · split
    · exact h.modCh.judge
    · exact h.modCh.judge.pinch

theorem State.SlotLaw.evaluation {s : State} {c : ChanId} (h : s.SlotLaw) : (s.evaluation c).SlotLaw := by
  unfold State.evaluation
  split
  · exact h
  · rename_i q _
    have taken : State.SlotLaw { s with effort := { s.effort with requests := dropRequest c s.effort.requests } } :=
      h.of_frame rfl rfl
    dsimp only
    split
    · exact taken.evaluate
    · exact taken

theorem State.SlotLaw.roadStale {s : State} (h : s.SlotLaw) : s.roadStale.SlotLaw := by
  unfold State.roadStale
  split
  · exact h.of_frame rfl rfl
  · exact h

/-! ## Fault lines -/

theorem State.SlotLaw.judgeLatch {s : State} {l : LineId} (h : s.SlotLaw) : (s.judgeLatch l).SlotLaw :=
  h.of_frame (by simp) (by simp)

theorem State.SlotLaw.judgeLatchesOf {s : State} {c : ChanId} (h : s.SlotLaw) : (s.judgeLatchesOf c).SlotLaw :=
  h.of_frame (by simp) (by simp)

theorem State.SlotLaw.assertOn {s : State} {l : LineId} {c : ChanId} (h : s.SlotLaw) : (s.assertOn l c).SlotLaw := by
  by_cases acts : s.assertable c = true
  · rw [State.assertOn_eq s l c acts]
    exact h.takeRecordHere.stopToFault.detach
  · have still : s.assertOn l c = s := by
      unfold State.assertable at acts
      unfold State.assertOn
      split <;> simp_all
    rwa [still]

theorem State.SlotLaw.assertOnAll {s : State} {l : LineId} {cs : List ChanId} (h : s.SlotLaw) :
    (s.assertOnAll l cs).SlotLaw := by
  have told : ∀ xs : List ChanId, (xs.foldl (fun s c => s.assertOn l c) s.countRace).SlotLaw :=
    fun xs => h.countRace.foldl (fun _ _ hs => hs.assertOn) xs
  unfold State.assertOnAll
  dsimp only
  split
  · exact (told _).grantPass
  · exact told _

theorem State.SlotLaw.assertLine {s : State} (l : LineId) (h : s.SlotLaw) : (s.assertLine l).SlotLaw := by
  have latched : State.SlotLaw { s with lines := s.lines.set l { s.lines[l] with asserted := true, latch := true } } :=
    h.of_frame rfl rfl
  exact (latched.assertOnAll (l := l) (cs := chansOf s.device.maps[l])).of_frame rfl rfl

theorem State.SlotLaw.lineAsserts {s : State} {l : LineId} (h : s.SlotLaw) : (s.lineAsserts l).SlotLaw := by
  unfold State.lineAsserts
  split
  · exact h
  · exact State.SlotLaw.assertLine l (h.of_frame rfl rfl)

theorem State.SlotLaw.lineReleases {s : State} {l : LineId} (h : s.SlotLaw) : (s.lineReleases l).SlotLaw := by
  unfold State.lineReleases
  split
  · exact State.SlotLaw.judgeLatch (h.of_frame rfl rfl)
  · exact h

theorem State.SlotLaw.firstLineSamples {s : State} (h : s.SlotLaw) : s.firstLineSamples.SlotLaw := by
  have sampled : State.SlotLaw { s with lines := s.lines.map FaultLine.firstSample, lineSampleIn := 2 } :=
    h.of_frame rfl rfl
  exact sampled.countRace.foldl (fun _ l hs => hs.assertLine l) _

/-! ## MOVE, STOP and expiries -/

theorem State.SlotLaw.moveIdle {s : State} {c : ChanId} {m : Motion} (h : s.SlotLaw) : (s.moveIdle c m).SlotLaw := by
  unfold State.moveIdle
  split
  · exact h.of_frame rfl rfl
  · exact h.modCh.askSlot

theorem State.SlotLaw.moveQueued {s : State} {c : ChanId} {old m : Motion} (h : s.SlotLaw) :
    (s.moveQueued c old m).SlotLaw := by
  unfold State.moveQueued
  split
  · exact h.modCh
  · exact h
  · split
    · exact h.endIdle
    · dsimp only
      split
      · exact h.modCh
      · exact h.of_frame rfl rfl

theorem State.SlotLaw.moveDwell {s : State} {c : ChanId} {old m : Motion} (h : s.SlotLaw) :
    (s.moveDwell c old m).SlotLaw := by
  unfold State.moveDwell
  split
  · exact h.modCh
  · exact h
  · split <;> exact h.modCh

theorem State.SlotLaw.moveRunning {s : State} {c : ChanId} {old m : Motion} (h : s.SlotLaw) :
    (s.moveRunning c old m).SlotLaw := by
  unfold State.moveRunning
  split
  · exact h.modCh
  · split
    · split
      · dsimp only
        split
        · exact h.modCh.dwellIdle
        · exact h.modCh
      · split
        · exact h.modCh
        · exact h
    · exact h.modCh

theorem State.SlotLaw.acceptMove {s : State} {c : ChanId} {m : Motion} (h : s.SlotLaw) :
    (s.acceptMove c m).SlotLaw := by
  unfold State.acceptMove
  split
  · exact h.moveIdle
  · exact h.moveQueued
  · exact h.moveRunning
  · exact h.moveRunning
  · exact h.moveDwell
  · exact h

theorem State.SlotLaw.moveOne {s : State} {c : ChanId} {m : Motion} (h : s.SlotLaw) : (s.moveOne c m).2.SlotLaw := by
  unfold State.moveOne
  split
  · exact h
  · exact h.acceptMove

theorem State.SlotLaw.moveAll {kind : MoveKind} {d : Dir} {target : Nat} {s : State} (cs : List ChanId)
    (h : s.SlotLaw) : (State.moveAll kind d target cs s).2.SlotLaw := by
  induction cs generalizing s with
  | nil => exact h
  | cons c cs ih => exact ih h.moveOne

theorem State.SlotLaw.stopOne {s : State} {c : ChanId} (h : s.SlotLaw) : (s.stopOne c).SlotLaw := by
  unfold State.stopOne
  split
  case h_1 => exact h.endIdle
  case h_2 | h_3 => exact h.dwellIdle
  case h_4 => split; exacts [h.modCh, h.modCh, h]
  case h_5 => exact h.dwellIdle
  all_goals exact h

theorem State.SlotLaw.leaseExpiry {s : State} {c : ChanId} (h : s.SlotLaw) : (s.leaseExpiry c).SlotLaw := by
  unfold State.leaseExpiry
  dsimp only
  split
  · split
    case h_1 => exact h.modCh.endIdle
    case h_2 | h_3 => exact h.modCh.dwellIdle
    case h_4 => split; exacts [h.modCh.modCh, h.modCh]
    all_goals exact h.modCh
  · exact h

theorem State.SlotLaw.dwellExpiry {s : State} {c : ChanId} (h : s.SlotLaw) : (s.dwellExpiry c).SlotLaw := by
  unfold State.dwellExpiry
  dsimp only
  split
  · exact h.endIdle
  · split
    · split
      · exact h.endIdle
      · exact h.modCh
    · exact h
  · split
    · split
      · exact h.endIdle
      · exact h.modCh
    · exact h
  · exact h.enterFault
  · exact h

theorem State.SlotLaw.backoffExpiry {s : State} {c : ChanId} (h : s.SlotLaw) : (s.backoffExpiry c).SlotLaw := by
  unfold State.backoffExpiry
  split
  · exact h.dwellIdle
  · exact h

/-! ## Supply -/

theorem State.SlotLaw.cutoffOne {s : State} {c : ChanId} (h : s.SlotLaw) : (s.cutoffOne c).SlotLaw := by
  unfold State.cutoffOne
  split
  case h_1 | h_2 | h_3 => exact h.modCh.endIdle
  case h_4 => split; exacts [h.endIdle, h.enterFault, h.endIdle]
  all_goals exact h

theorem State.SlotLaw.supplyChanged {s : State} (h : s.SlotLaw) : s.supplyChanged.SlotLaw := by
  have posted : s.postSupply.SlotLaw := h.of_frame rfl rfl
  unfold State.supplyChanged
  dsimp only
  split
  · exact posted.foldl (fun _ _ hs => hs.cutoffOne) _
  · exact posted.grantPass
  · exact posted
  · exact posted

theorem State.SlotLaw.supplySample {s : State} {mv : Nat} (h : s.SlotLaw) : (s.supplySample mv).SlotLaw := by
  have sampled : State.SlotLaw { s with supply := s.supply.sample mv } := h.of_frame rfl rfl
  unfold State.supplySample
  dsimp only
  split
  · exact sampled
  · exact sampled.supplyChanged

/-! ## Resets -/

/-- No holder, and the default Slot count: the law holds after a power-on whatever held before it. -/
theorem State.slotLaw_powerOn (s : State) : s.powerOn.SlotLaw :=
  have range : 1 ≤ Device.defaults.slotCount ∧ Device.defaults.slotCount ≤ 4 := by decide
  State.SlotLaw.firstLineSamples (State.SlotLaw.of_noHolders rfl range.1 range.2)

theorem State.SlotLaw.preserve {s : State} (h : s.SlotLaw) : s.preserve.SlotLaw := by
  obtain ⟨-, -, one, four⟩ := h
  exact State.SlotLaw.firstLineSamples (State.SlotLaw.of_noHolders rfl one four)

theorem State.SlotLaw.takeReset {s : State} (m : ResetMode) (h : s.SlotLaw) : (s.takeReset m).SlotLaw := by
  cases m with
  | full => exact s.slotLaw_powerOn
  | preserve => exact h.preserve

theorem State.SlotLaw.frameEnd {s : State} (h : s.SlotLaw) : s.frameEnd.SlotLaw := by
  unfold State.frameEnd
  split
  · exact h
  · dsimp only
    split
    · split
      · exact State.SlotLaw.takeReset _ (h.of_frame rfl rfl)
      · exact h.of_frame rfl rfl
    · exact h.of_frame rfl rfl

/-! ## Parameters -/

theorem State.SlotLaw.writeChan {s : State} {c : ChanId} {p : ChanParam} {v : Nat} (h : s.SlotLaw) :
    (s.writeChan c p v).SlotLaw := by
  have enable : (s.writeEnable c v).SlotLaw := by
    unfold State.writeEnable
    split
    · exact h.modCh
    · exact h.modCh
    · exact h.modCh.judgeLatchesOf
    · exact h
  unfold State.writeChan
  split
  · exact enable
  · exact h.modCh
  · exact h.modCh
  · exact h.modCh

theorem State.SlotLaw.writeMap {s : State} {l : LineId} {v : Nat} (h : s.SlotLaw) : (s.writeMap l v).SlotLaw := by
  have mapped : State.SlotLaw { s with device := s.device.put (.lineMap l) v } := h.of_frame rfl rfl
  unfold State.writeMap
  dsimp only
  split
  · exact mapped.assertOnAll.judgeLatch
  · exact mapped.judgeLatch

/-- The Slot count is written only while no channel holds a slot (R164). -/
theorem State.noHolders_of_judgeDev {s : State} (accepted : s.judgeDev .slotCount = none) : s.arbiter.holders = [] := by
  unfold State.judgeDev at accepted
  split at accepted
  · cases accepted
  · simpa using accepted

theorem taken_slotCount_bounds (v : Nat) : 1 ≤ DevParam.slotCount.taken v ∧ DevParam.slotCount.taken v ≤ 4 := by
  simp only [DevParam.taken, clampNat]
  omega

theorem State.SlotLaw.writeDev {s : State} {p : DevParam} {value : Nat} (h : s.SlotLaw)
    (accepted : s.judgeDev p = none) : (s.writeDev p (p.taken value)).SlotLaw := by
  cases p with
  | slotCount =>
    obtain ⟨one, four⟩ := taken_slotCount_bounds value
    exact State.SlotLaw.of_noHolders (State.noHolders_of_judgeDev accepted) one four
  | lineMap l => exact h.writeMap
  | cmWindow | holdTime | roadStaleness => exact h.of_frame rfl rfl

/-! ## Requests -/

/-- An owner of a request keeps the law. -/
def KeepsSlotLaw (owner : State → Answer × State) : Prop := ∀ s : State, s.SlotLaw → (owner s).2.SlotLaw

theorem State.SlotLaw.dispatch {s : State} {type tag : Byte} {owner : State → Answer × State} (h : s.SlotLaw)
    (keeps : KeepsSlotLaw owner) : (s.dispatch type tag owner).SlotLaw := by
  unfold State.dispatch
  split
  · exact h
  · split
    · exact h.of_frame rfl rfl
    · exact (keeps s h).of_frame rfl rfl

/-- An owner that only answers, from the state or without it. -/
theorem keepsSlotLaw_answer (a : State → Answer) : KeepsSlotLaw (fun s => (a s, s)) := fun _ h => h

theorem keepsSlotLaw_configure (ident ch : Byte) (value : Nat) : KeepsSlotLaw (reqConfigure ident ch value) := by
  intro s h
  unfold reqConfigure
  split
  · exact h
  · split
    · exact h
    · split
      · exact h
      · exact h.writeChan
  · split
    · exact h
    · rename_i accepted
      exact h.writeDev accepted

theorem keepsSlotLaw_readParameter (ident ch : Byte) : KeepsSlotLaw (reqReadParameter ident ch) := by
  intro s h
  unfold reqReadParameter
  split
  · exact h
  · split <;> exact h
  · exact h

theorem keepsSlotLaw_move (set : ChanSet) (kind dir : Byte) (target : Nat) :
    KeepsSlotLaw (reqMove set kind dir target) := by
  intro s h
  unfold reqMove
  split
  · exact h.moveAll _
  · exact h

theorem keepsSlotLaw_stop (set : ChanSet) : KeepsSlotLaw (reqStop set) :=
  fun _ h => h.foldl (fun _ _ hs => hs.stopOne) _

theorem keepsSlotLaw_vehicleState (level : Byte) (speed : Word16) : KeepsSlotLaw (reqVehicleState level speed) :=
  fun _ h => h.of_frame rfl rfl

theorem keepsSlotLaw_channelStatus (ch : Byte) : KeepsSlotLaw (reqChannelStatus ch) := by
  intro s h
  unfold reqChannelStatus
  split
  · exact h
  · exact h.modCh

theorem keepsSlotLaw_readWindow (ch : Byte) : KeepsSlotLaw (reqReadWindow ch) := by
  intro s h
  unfold reqReadWindow
  split <;> exact h

theorem keepsSlotLaw_clearConditions (ch : Byte) : KeepsSlotLaw (reqClearConditions ch) := by
  intro s h
  unfold reqClearConditions
  split
  · exact h
  · exact h.modCh

theorem keepsSlotLaw_clearFault (ch : Byte) : KeepsSlotLaw (reqClearFault ch) := by
  intro s h
  unfold reqClearFault
  split
  · exact h
  · split
    · split
      · exact h
      · exact h.modCh.judgeLatchesOf
    · exact h

theorem keepsSlotLaw_profileRead (ch seg : Byte) : KeepsSlotLaw (reqProfileRead ch seg) := by
  intro s h
  unfold reqProfileRead
  split
  · exact h
  · split <;> exact h

theorem keepsSlotLaw_profileLoad (ch seg : Byte) (images : List CellImage) :
    KeepsSlotLaw (reqProfileLoad ch seg images) := by
  intro s h
  unfold reqProfileLoad
  split
  · exact h
  · split
    · exact h
    · split
      · exact h
      · split
        · exact h
        · split
          · exact h
          · split
            · exact h
            · exact h.modCh

theorem keepsSlotLaw_channelRestore (ch : Byte) (position travel reversal : Nat) :
    KeepsSlotLaw (reqChannelRestore ch position travel reversal) := by
  intro s h
  unfold reqChannelRestore
  split
  · exact h
  · dsimp only
    split
    · exact h
    · split
      · exact h
      · exact h.modCh

theorem keepsSlotLaw_channelDefaults (ch : Byte) : KeepsSlotLaw (reqChannelDefaults ch) := by
  intro s h
  unfold reqChannelDefaults
  split
  · exact h
  · split
    · exact h
    · split
      · exact h
      · exact h.modCh

theorem keepsSlotLaw_incidentRelease (ident : Byte) : KeepsSlotLaw (reqIncidentRelease ident) := by
  intro s h
  unfold reqIncidentRelease
  split
  · exact h
  · split
    · exact h.of_frame rfl rfl
    · exact h

theorem keepsSlotLaw_lock : KeepsSlotLaw reqLock := fun _ h => h.of_frame rfl rfl

theorem keepsSlotLaw_reset (mode : Byte) : KeepsSlotLaw (reqReset mode) := by
  intro s h
  unfold reqReset
  split <;> exact h

/-! ## Frames -/

/-- Each type with its payload length (Table 11-1) has one shape of payload, and so one owner. -/
theorem keepsSlotLaw_ownerOf {type : Byte} {p : List Byte} (fits : payloadLength type = some p.length) :
    KeepsSlotLaw (ownerOf type p) := by
  unfold payloadLength at fits
  unfold ownerOf
  generalize type.toNat = code at fits ⊢
  split at fits
  · match p, fits with | [], _ => exact keepsSlotLaw_answer _
  · match p, fits with | [_, _, _, _], _ => exact keepsSlotLaw_configure _ _ _
  · match p, fits with | [_, _], _ => exact keepsSlotLaw_readParameter _ _
  · match p, fits with | [_, _, _, _, _], _ => exact keepsSlotLaw_move _ _ _ _
  · match p, fits with | [_], _ => exact keepsSlotLaw_stop _
  · match p, fits with | [_, _, _], _ => exact keepsSlotLaw_vehicleState _ _
  · match p, fits with | [_], _ => exact keepsSlotLaw_channelStatus _
  · match p, fits with | [_], _ => exact keepsSlotLaw_readWindow _
  · match p, fits with | [_], _ => exact keepsSlotLaw_clearConditions _
  · match p, fits with | [_], _ => exact keepsSlotLaw_clearFault _
  · match p, fits with | [_, _], _ => exact keepsSlotLaw_profileRead _ _
  · match p, fits with | _ :: _ :: _, _ => exact keepsSlotLaw_profileLoad _ _ _
  · match p, fits with | [_, _, _, _, _, _], _ => exact keepsSlotLaw_channelRestore _ _ _ _
  · match p, fits with | [_], _ => exact keepsSlotLaw_channelDefaults _
  · match p, fits with | [], _ => exact keepsSlotLaw_answer _
  · match p, fits with | [_], _ => exact keepsSlotLaw_incidentRelease _
  · match p, fits with | [], _ => exact keepsSlotLaw_lock
  · match p, fits with | [_], _ => exact keepsSlotLaw_reset _
  · match p, fits with | [], _ => exact keepsSlotLaw_answer _
  · cases fits

theorem keepsSlotLaw_frameOwner (type : Byte) (p : List Byte) : KeepsSlotLaw (frameOwner type p) := by
  unfold frameOwner
  split
  · exact keepsSlotLaw_answer _
  · rename_i n isRequestType
    split
    · rename_i length
      exact keepsSlotLaw_ownerOf (length ▸ isRequestType)
    · exact keepsSlotLaw_answer _

theorem State.SlotLaw.frameComplete {s : State} (buffer : List Byte) (h : s.SlotLaw) :
    (s.frameComplete buffer).SlotLaw := by
  unfold State.frameComplete
  split
  · exact h.dispatch (keepsSlotLaw_frameOwner _ _)
  · exact h

theorem State.SlotLaw.receive {s : State} {b : Byte} (h : s.SlotLaw) : (s.receive b).SlotLaw := by
  unfold State.receive
  dsimp only
  split
  · split
    · exact h.of_frame rfl rfl
    · exact h
  · split <;> exact h.of_frame rfl rfl
  · exact h.of_frame rfl rfl
  · split
    · exact State.SlotLaw.frameComplete _ (h.of_frame rfl rfl)
    · exact h.of_frame rfl rfl

theorem State.SlotLaw.gapExpiry {s : State} (h : s.SlotLaw) : s.gapExpiry.SlotLaw := by
  unfold State.gapExpiry
  dsimp only
  split
  · exact h
  · split <;> exact h.of_frame rfl rfl

/-! ## Steps -/

theorem State.SlotLaw.done {s t : State} (h : s.SlotLaw) (e : done s = .next t) : t.SlotLaw := by
  rw [done_eq_next] at e
  rw [← e]
  exact h.of_frame rfl rfl

theorem State.SlotLaw.request {s t : State} {type tag : Byte} {owner : State → Answer × State} (h : s.SlotLaw)
    (keeps : KeepsSlotLaw owner) (e : request s type tag owner = .next t) : t.SlotLaw :=
  (h.dispatch keeps).done e

theorem State.SlotLaw.exec {s t : State} {i : Instr} (h : s.SlotLaw) (e : exec i s = .next t) : t.SlotLaw := by
  cases i with
  | identify => exact h.request (keepsSlotLaw_answer _) e
  | configure => exact h.request (keepsSlotLaw_configure _ _ _) e
  | readParameter => exact h.request (keepsSlotLaw_readParameter _ _) e
  | move => exact h.request (keepsSlotLaw_move _ _ _ _) e
  | stop => exact h.request (keepsSlotLaw_stop _) e
  | vehicleState => exact h.request (keepsSlotLaw_vehicleState _ _) e
  | channelStatus => exact h.request (keepsSlotLaw_channelStatus _) e
  | readWindow => exact h.request (keepsSlotLaw_readWindow _) e
  | clearConditions => exact h.request (keepsSlotLaw_clearConditions _) e
  | clearFault => exact h.request (keepsSlotLaw_clearFault _) e
  | profileRead => exact h.request (keepsSlotLaw_profileRead _ _) e
  | profileLoad => exact h.request (keepsSlotLaw_profileLoad _ _ _) e
  | channelRestore => exact h.request (keepsSlotLaw_channelRestore _ _ _ _) e
  | channelDefaults => exact h.request (keepsSlotLaw_channelDefaults _) e
  | incidentRead => exact h.request (keepsSlotLaw_answer _) e
  | incidentRelease => exact h.request (keepsSlotLaw_incidentRelease _) e
  | lock => exact h.request keepsSlotLaw_lock e
  | reset => exact h.request (keepsSlotLaw_reset _) e
  | deviceStatus => exact h.request (keepsSlotLaw_answer _) e
  | serialByteReceived b stopHigh =>
    have received : (if stopHigh then s.receive b else s).SlotLaw := by
      split
      · exact h.receive
      · exact h
    exact received.done e
  | gapTimerExpiry => exact h.gapExpiry.done e
  | transmitFrameEnd => exact h.frameEnd.done e
  | powerOnReset => exact s.slotLaw_powerOn.done e
  | count => exact h.count.done e
  | illegalTransition => exact h.illegalTransition.done e
  | intervalTimerOverflow => exact h.intervalOverflow.done e
  | stallWatchdogExpiry => exact h.watchdogExpiry.done e
  | evaluation => exact h.evaluation.done e
  | dwellExpiry => exact h.dwellExpiry.done e
  | backoffTimerExpiry => exact h.backoffExpiry.done e
  | leaseExpiry => exact h.leaseExpiry.done e
  | rampStep => exact h.modCh.done e
  | commonModeHoldExpiry =>
    have released : State.SlotLaw { s with effort := { s.effort with hold := none } } := h.of_frame rfl rfl
    exact released.done e
  | roadLevelStalenessExpiry => exact h.roadStale.done e
  | supplySample => exact h.supplySample.done e
  | faultLineAssertion => exact h.lineAsserts.done e
  | faultLineRelease => exact h.lineReleases.done e
  | pwmPeriodBoundary => exact h.modCh.done e

theorem State.SlotLaw.elapse {s : State} (h : s.SlotLaw) : s.elapse.SlotLaw := by
  unfold State.elapse State.linesTick
  dsimp only
  split <;> exact h.of_frame rfl rfl

theorem State.SlotLaw.idleStep {s : State} (h : s.SlotLaw) : s.idleStep.SlotLaw := by
  unfold State.idleStep
  split
  · exact h.elapse
  · exact h.of_frame rfl rfl
  · exact h.of_frame rfl rfl

/-- Settles O8: a step is the part's own clock or one command, and each keeps the law. -/
theorem slotsNeverExceedSlotCount : Obligations.SlotsNeverExceedSlotCount := by
  intro s t h e
  unfold step at e
  split at e
  · exact Host.Outcome.next.inj e ▸ h.idleStep
  · rename_i c rest _
    have taken : State.SlotLaw { s with pending := rest } := h.of_frame rfl rfl
    exact taken.exec e

end Sys2Proof.Machine
end

section
/-! PROOFS. IDENTIFY (R190): its owner's answer, which leaves the state as it is, then the request. -/

namespace Sys2Proof.Machine

theorem exec_identify (tag : Byte) (s : State) : exec (.identify tag) s = request s 0x01 tag reqIdentify := rfl

theorem reqIdentify_eq (s : State) : reqIdentify s = (answer .ok [1, 8, 1, 8, 4, 48, 4], s) := rfl

/-- Settles O21: the owner hands the state back, so the reply with the identity bytes is all that a request heard adds. -/
theorem identifyAnswersTheIdentity : Obligations.IdentifyAnswersTheIdentity := by
  intro s tag hearing
  rw [exec_identify]
  exact request_answered hearing (reqIdentify_eq s)

end Sys2Proof.Machine
end

section
/-! PROOFS. The single updates that every step of the part is made of: those of one channel that leave its standing at the
arbiter alone (`Chan.Quiet`), and those of the whole part (`State.Act`,
`State.Op`). `step_runs` says that every step is a run of such
updates; each law of the part is then shown for the single updates alone. -/

namespace Sys2Proof.Machine

open Relation

/-! ## Updates of one channel -/

/-- A motion that may replace the channel's own without a change of its outputs, its slot or its queue entry. -/
def Chan.MotionFits (k : Chan) (m : Motion) : Prop :=
  match k.ms.state with
  | .startup | .travel => k.ms.motion.map Motion.dir = some m.dir
  | .queued => k.ms.motion.map Motion.held = some m.held
  | .disabled | .idle | .dwell | .backoff | .fault => True

/-- A value that a write of a per-channel parameter stores: admitted by its row, and taken against the pending set (R5). -/
def Chan.Takes (k : Chan) (p : ChanParam) (v : Nat) : Prop :=
  ∃ value, p.row.range.admits value = true ∧ v = chanTaken k.ms.pending p value

/-- The updates of a channel that leave its slot, its queue entry and its being out of service alone. -/
inductive Chan.Quiet (k : Chan) : Chan → Prop
  | count (ph : HallPhase) : Quiet k (k.decodeCount ph)
  | blanking : Quiet k k.countBlanking
  | illegal : Quiet k k.illegal
  | overflow (running : k.pd.overflow < 2) :
      Quiet k { k with pd := { k.pd with timer := 0, prescaler := 0, overflow := k.pd.overflow + 1 } }
  | stopWatchdog : Quiet k k.stopWatchdog
  | losePosition : Quiet k k.losePosition
  | setZero (inService : k.ms.state ≠ .disabled) : Quiet k (k.setPosition 0)
  | readDifference : Quiet k { k with pd := { k.pd with difference := 0 } }
  | countClose : Quiet k k.countClose
  | clearReversal : Quiet k { k with ms := { k.ms with reversal := 0, override := false } }
  | restore (p t r : Nat) (inService : k.ms.state ≠ .disabled) (hp : p ≤ k.ms.active.get .travelLength)
      (ht : t ≤ 65535) (hr : r ≤ 7) : Quiet k (k.restore p t r)
  | rampStep : Quiet k k.rampStep
  | pwmBoundary (su : Supply) : Quiet k (k.pwmBoundary su)
  | tick : Quiet k k.tick
  | raise (x : Condition) : Quiet k (k.raise x)
  | clearSticky : Quiet k { k with ee := { k.ee with sticky := .clear } }
  | setTaint : Quiet k k.setTaint
  | note (overflowed : Bool) (raised : List Condition) : Quiet k (k.noteConditions overflowed raised)
  | measure (cell : Fin 64) (pn : Option Nat) (inRange : ∀ n ∈ pn, 1 ≤ n ∧ n ≤ 65535) :
      Quiet k (k.addMeasurement cell pn)
  | writeSlot (sl : Slot) (inRange : -2048 ≤ sl.value ∧ sl.value ≤ 2047) :
      Quiet k { k with ee := k.ee.writeSlot sl }
  | history (b : Bool) : Quiet k { k with ee := k.ee.shiftHistory b }
  | summary (sl : Slot) (cell : Fin 64) (a : Option Int) (teff : Option Nat) : Quiet k (k.setSummary sl cell a teff)
  | lane (time : Option Millis) : Quiet k { k with ee := { k.ee with lane := time } }
  | discardScratch : Quiet k k.discardScratch
  | adapt (unknown drift filling : Bool) : Quiet k (k.adapt unknown drift filling)
  | emptyProfile : Quiet k k.emptyProfile
  | loadCells (g : Fin 8) (images : List CellImage) : Quiet k
      { k with rps := { k.rps with cells := loadSegment k.rps.cells g (images.map CellImage.taken) } }
  | setMotion (m : Motion) (fits : k.MotionFits m) : Quiet k (k.setMotion m)
  | lease (t : Option Nat) : Quiet k { k with ms := { k.ms with lease := t } }
  | dwell (succ : Successor) (driving : k.ms.state.driving = true) : Quiet k (k.enterDwell succ)
  | redirect (r : MotionResult) (dwelling : k.ms.state = .dwell) : Quiet k (k.redirectDwell r)
  | startup (su : Supply) (m : Motion) (dwelling : k.ms.state = .dwell) : Quiet k (k.enterStartup su m)
  | backoff (su : Supply) (target : Int) (dwelling : k.ms.state = .dwell) : Quiet k (k.enterBackoff su target)
  | pinched (n : Nat) (override : Bool) (target : Option BackoffRecord) (atMost : n ≤ 7) : Quiet k
      { k with ms := { k.ms with reversal := n, override := override, marker := true, backoff := target } }
  | store (p : ChanParam) (v : Nat) (plain : p ≠ .enable ∧ p ≠ .endMode ∧ p ≠ .travelLength) (taken : k.Takes p v) :
      Quiet k { k with ms := { k.ms with pending := k.ms.pending.store p v } }
  | geometry (p : ChanParam) (v : Nat) (isGeometry : p = .endMode ∨ p = .travelLength) (taken : k.Takes p v)
      (disabled : k.ms.state = .disabled) : Quiet k (k.writeGeometry p v)
  | restoreDefaults : Quiet k k.restoreDefaults
  | disable (resting : k.ms.state = .idle ∨ k.ms.state = .fault) : Quiet k k.disable

/-- A run of such updates. -/
abbrev Chan.Quietly : Chan → Chan → Prop := ReflTransGen Chan.Quiet

theorem Chan.Quiet.once {k u : Chan} (h : k.Quiet u) : k.Quietly u := .single h

/-- Every update of a channel: the quiet ones, and the entries into and out of service, queue and slot. -/
inductive Chan.Step (k : Chan) : Chan → Prop
  | quiet {u : Chan} (h : k.Quiet u) : Step k u
  | enterIdle : Step k k.enterIdle
  | enterFault (cause : FaultCause) : Step k (k.discardScratch.rest .fault cause)
  | queue (idle : k.ms.state = .idle) : Step k { k with ms := { k.ms with state := .queued } }
  | exchange (m : Motion) (queued : k.ms.state = .queued) : Step k (k.setMotion m)
  | start (su : Supply) (m : Motion) : Step k (k.enterStartup su m)
  | enable : Step k k.enable
  | powerOn : Step k k.powerOn
  | preserve : Step k k.preserve

/-- A run of channel updates. -/
abbrev Chan.Steps : Chan → Chan → Prop := ReflTransGen Chan.Step

theorem Chan.Quietly.steps {k u : Chan} (h : k.Quietly u) : k.Steps u := h.lift id (fun _ _ => .quiet)

/-- What every update keeps, a run of them keeps. -/
theorem keeps_of_reflTransGen {α : Type} {r : α → α → Prop} {P : α → Prop} (once : ∀ {a b}, r a b → P a → P b) {a b : α}
    (run : ReflTransGen r a b) (h : P a) : P b := by
  induction run with
  | refl => exact h
  | tail _ last ih => exact once last ih

/-! ## Updates of the part -/

/-- The part a reset leaves before its first fault line samples: nothing in slots and queue, every channel at rest, every
record free, a receiver and reply queue at their start, a supply sample taken. -/
structure State.ResetBase (s b : State) : Prop where
  arbiter : b.arbiter = ⟨[], []⟩
  slots : s.device.slotCount = b.device.slotCount ∨ b.device.slotCount = 2
  chans : ∀ c, (s.ch c).Step (b.ch c)
  atRest : ∀ c, (b.ch c).ms.state = .idle ∨ (b.ch c).ms.state = .disabled
  free : b.pool.free = allFree
  waiting : b.pool.waiting = []
  lost : b.pool.lost = 0
  link : b.link = .reset
  supply : b.supply = s.supply.firstSample

/-- The updates of the whole part that a command makes before its reply and its transmitter. -/
inductive State.Act (s : State) : State → Prop
  | chan {c : ChanId} {k : Chan} (h : (s.ch c).Quietly k) : Act s (s.setCh c k)
  | record (c : ChanId) (q : IncidentCause) (p : Int) (known : Bool) : Act s (s.takeRecord c q p known)
  | release (r : RecId) (pending : r ∈ s.pool.waiting) : Act s { s with pool := s.pool.release r }
  | notices (n : Notices) : Act s { s with link := { s.link with notices := n } }
  | lock : Act s { s with link := { s.link with locked := true } }
  | effort (e : Effort) : Act s { s with effort := e }
  | races (n : Nat) : Act s { s with races := n }
  | lines (ls : Vector FaultLine 4) (n : Nat)
      (noneAsserted : ∀ l : LineId, ls[l].asserted = true → s.lines[l].asserted = true) :
      Act s { s with lines := ls, lineSampleIn := n }
  | supply (su : Supply) (sampled : s.supply.hist ≠ [] → su.hist ≠ [])
      (noGrants : s.supply.hist ≠ [] → su.state = .normal → s.supply.state = .normal) : Act s { s with supply := su }
  | supplyNormal (su : Supply) (sampled : su.hist ≠ []) : Act s (State.grantPass { s with supply := su })
  | device (d : Device) (maps : d.maps = s.device.maps)
      (slots : d.slotCount = s.device.slotCount ∨ s.arbiter.holders = [] ∧ 1 ≤ d.slotCount ∧ d.slotCount ≤ 4) :
      Act s { s with device := d }
  | endIdle (c : ChanId) (r : MotionResult) (moving : (s.ch c).ms.state.holding = true ∨ (s.ch c).ms.state = .queued) :
      Act s (s.endIdle c r)
  | enterFault (c : ChanId) (q : FaultCause) (moving : (s.ch c).ms.state.holding = true) : Act s (s.enterFault c q)
  | clearFault (c : ChanId) (faulted : (s.ch c).ms.state = .fault) (free : s.faultedBy c = false) :
      Act s (s.setCh c (s.ch c).enterIdle)
  | enable (c : ChanId) (disabled : (s.ch c).ms.state = .disabled) (free : s.faultedBy c = false) :
      Act s (s.setCh c (s.ch c).enable)
  | askSlot (c : ChanId) (m : Motion) (idle : (s.ch c).ms.state = .idle) (motion : (s.ch c).ms.motion = some m) :
      Act s (s.askSlot c m)
  | requeue (c : ChanId) (m : Motion) (queued : (s.ch c).ms.state = .queued) :
      Act s { s.setCh c ((s.ch c).setMotion m) with
        arbiter := { s.arbiter with queue := Sys2Proof.Machine.requeue c m.held s.arbiter.queue } }
  | assertLine (l : LineId) : Act s (s.assertLine l)
  | writeMap (l : LineId) (v : Nat) : Act s (s.writeMap l v)

/-- A run of such updates. -/
abbrev State.Acts : State → State → Prop := ReflTransGen State.Act

theorem State.Act.once {s t : State} (h : s.Act t) : s.Acts t := .single h

/-- The updates a step is made of: those above, the link's, the clock's, the queue's, and a reset. -/
inductive State.Op (s : State) : State → Prop
  | act {t : State} (h : s.Act t) : Op s t
  | ticked : Op s (s.mapCh Chan.tick)
  | link (l : Link) (lawful : s.link.Lawful → l.Lawful) : Op s { s with link := l }
  | clock (t : Clock) : Op s { s with clock := t }
  | pending (q : List Instr) : Op s { s with pending := q }
  | reset (b : State) (base : s.ResetBase b) : Op s b.firstLineSamples

/-- A run of the updates of steps. -/
abbrev State.Runs : State → State → Prop := ReflTransGen State.Op

theorem State.Op.once {s t : State} (h : s.Op t) : s.Runs t := .single h

theorem State.Acts.runs {s t : State} (h : s.Acts t) : s.Runs t := h.lift id (fun _ _ => .act)

end Sys2Proof.Machine
end

section
/-! PROOFS. Every operation of the part is a run of single updates: `State.acts_f` says so of the operation `f`. -/

namespace Sys2Proof.Machine

open Relation

/-! ## Acts of single updates -/

theorem State.acts_setCh {s : State} {c : ChanId} {k : Chan} (h : (s.ch c).Quietly k) : s.Acts (s.setCh c k) :=
  State.Act.once (.chan h)

theorem State.acts_modCh {s : State} {c : ChanId} {f : Chan → Chan} (h : (s.ch c).Quiet (f (s.ch c))) :
    s.Acts (s.modCh c f) := State.acts_setCh h.once

theorem State.acts_notices (s : State) (n : Notices) : s.Acts { s with link := { s.link with notices := n } } :=
  State.Act.once (.notices _)

theorem State.acts_postMotionEnd (s : State) (c : ChanId) (r : MotionResult) : s.Acts (s.postMotionEnd c r) :=
  s.acts_notices _

theorem State.acts_postFaultLine (s : State) (l : LineId) (level : Bool) : s.Acts (s.postFaultLine l level) :=
  s.acts_notices _

theorem State.acts_postSupply (s : State) : s.Acts s.postSupply := s.acts_notices _

theorem State.acts_countRace (s : State) : s.Acts s.countRace := State.Act.once (.races _)

theorem State.acts_foldl {α : Type} {f : State → α → State} (each : ∀ (s : State) (a : α), s.Acts (f s a)) (s : State) (xs : List α) :
    s.Acts (xs.foldl f s) :=
  List.foldlRecOn xs f ReflTransGen.refl (fun u hu a _ => hu.trans (each u a))

/-! ## Ends of motions and stops -/

theorem ChState.driving_iff {st : ChState} : st.driving = true ↔ st = .startup ∨ st = .travel ∨ st = .backoff := by
  cases st <;> simp [ChState.driving]

theorem Chan.quietly_dwell {k u : Chan} (succ : Successor) (before : k.Quietly u) (driving : u.ms.state.driving = true) :
    k.Quietly (u.enterDwell succ) := before.tail (.dwell succ driving)

theorem State.acts_dwellIdle {s : State} {c : ChanId} {r : MotionResult} (driving : (s.ch c).ms.state.driving = true) :
    s.Acts (s.dwellIdle c r) := State.acts_modCh (.dwell _ driving)

theorem State.acts_conditionStop (s : State) (c : ChanId) (x : Condition) : s.Acts (s.conditionStop c x) := by
  unfold State.conditionStop
  split
  · rename_i driving
    exact (State.Act.once (.record _ _ _ _)).trans (State.acts_modCh (.dwell _ (by simpa using driving)))
  · exact .refl

theorem Chan.quietly_completeClosed {k u : Chan} {unknown drift : Bool} (before : k.Quietly u)
    (driving : u.ms.state.driving = true) : k.Quietly (u.completeClosed unknown drift) := by
  have counted : k.Quietly u.countClose := before.tail .countClose
  have adapted : k.Quietly (u.countClose.adapt unknown drift u.filling) := counted.tail (.adapt _ _ _)
  refine Chan.quietly_dwell _ adapted ?_
  rw [(Chan.adapt_fields _ _ _ _).2.1]
  exact driving

theorem ChState.inService_of_driving {st : ChState} (h : st.driving = true) : st ≠ .disabled := by
  rintro rfl
  cases h

theorem State.acts_closedEnd {s : State} {c : ChanId} (driving : (s.ch c).ms.state.driving = true) :
    s.Acts (s.closedEnd c) := by
  have inService := ChState.inService_of_driving driving
  unfold State.closedEnd
  dsimp only
  split
  · exact State.acts_setCh (Chan.quietly_completeClosed .refl driving)
  · split
    · exact State.acts_setCh (Chan.quietly_completeClosed (.single (.setZero inService)) driving)
    · split
      · exact State.acts_setCh (Chan.quietly_completeClosed (.single (.setZero inService)) driving)
      · split
        · refine State.acts_setCh (Chan.quietly_completeClosed (ReflTransGen.tail (.single (.raise .drift)) ?_) driving)
          exact .setZero inService
        · have barred : (s.ch c).Quietly (((s.ch c).raise .drift).losePosition.adapt false true (s.ch c).filling) :=
            ((ReflTransGen.single (.raise .drift)).tail .losePosition).tail (.adapt _ _ _)
          refine ((State.acts_setCh barred).tail (.record _ _ _ _)).trans (State.acts_modCh (.dwell _ ?_))
          rw [State.ch_takeRecord, State.ch_setCh_self, (Chan.adapt_fields _ _ _ _).2.1]
          exact driving

theorem Chan.quietly_endOfSeek {k : Chan} (driving : k.ms.state.driving = true) : k.Quietly k.endOfSeek := by
  have braked : k.Quietly (k.enterDwell .startup) := .single (.dwell _ driving)
  have atZero : k.Quietly ((k.enterDwell .startup).setPosition 0) := braked.tail (.setZero (by simp [Chan.enterDwell]))
  exact ((atZero.tail .clearReversal).tail .emptyProfile).tail (.setMotion _ trivial)

theorem State.acts_pinch {s : State} {c : ChanId} {q : IncidentCause} {p : Int}
    (driving : (s.ch c).ms.state.driving = true) : s.Acts (s.pinch c q p) := by
  unfold State.pinch
  split
  · refine (State.Act.once (.record _ _ _ _)).trans (State.acts_dwellIdle ?_)
    rw [State.ch_takeRecord]
    exact driving
  · unfold State.pinchResponse
    dsimp only
    refine ((State.acts_modCh (.pinched _ _ _ (min_le_left _ _))).tail (.record c q p true)).trans
      (State.acts_modCh (.dwell _ ?_))
    rw [State.ch_takeRecord, State.modCh_eq, State.ch_setCh_self]
    exact driving

theorem State.acts_closingStall {s : State} {c : ChanId} (driving : (s.ch c).ms.state.driving = true) :
    s.Acts (s.closingStall c) := by
  unfold State.closingStall
  dsimp only
  split
  · exact State.acts_pinch driving
  · split
    · exact State.acts_dwellIdle driving
    · exact State.acts_closedEnd driving

theorem State.acts_stall (s : State) (c : ChanId) : s.Acts (s.stall c) := by
  unfold State.stall
  dsimp only
  split
  · rename_i _ state _
    have driving : (s.ch c).ms.state.driving = true := by rw [state]; rfl
    split
    · exact State.acts_setCh (Chan.quietly_endOfSeek driving)
    · exact State.acts_dwellIdle driving
  · rename_i _ state _
    have driving : (s.ch c).ms.state.driving = true := by rw [state]; rfl
    split
    · exact State.acts_setCh (Chan.quietly_endOfSeek driving)
    · split
      · exact State.acts_closingStall driving
      · exact State.acts_dwellIdle driving
  · rename_i state
    exact State.acts_dwellIdle (by rw [state]; rfl)
  · exact .refl

theorem State.acts_losePositionQueued (s : State) (c : ChanId) : s.Acts (s.losePositionQueued c) := by
  unfold State.losePositionQueued
  dsimp only
  split
  · rename_i waits
    exact State.Act.once (.endIdle _ _ (.inr waits.1))
  · exact .refl

theorem State.acts_takeEnd {s : State} {c : ChanId} (e : TravelEnd) (driving : (s.ch c).ms.state.driving = true) :
    s.Acts (s.takeEnd c e) := by
  cases e with
  | closedEnd => exact State.acts_closedEnd driving
  | idle r => exact State.acts_dwellIdle driving
  | openDone => exact State.acts_setCh ((ReflTransGen.single (.dwell _ driving)).tail (.setMotion _ trivial))

/-! ## Counts and stalls -/

theorem Chan.driving_countBlanking {k : Chan} (driving : k.ms.state.driving = true) :
    k.countBlanking.ms.state.driving = true := by
  unfold Chan.countBlanking
  dsimp only
  split
  · rfl
  · exact driving

theorem State.acts_progress {s : State} {c : ChanId} (commanded : Bool) (driving : (s.ch c).ms.state.driving = true) :
    s.Acts (s.progress c commanded) := by
  unfold State.progress
  dsimp only
  split
  · have blanked : s.Acts (s.modCh c Chan.countBlanking) := State.acts_modCh .blanking
    split
    · refine blanked.trans (State.acts_takeEnd _ ?_)
      rw [State.modCh_eq, State.ch_setCh_self]
      exact Chan.driving_countBlanking driving
    · exact blanked
  · exact .refl

theorem State.acts_runningReport {s : State} {c : ChanId} (commanded lost overflow : Bool)
    (driving : (s.ch c).ms.state.driving = true) : s.Acts (s.runningReport c commanded lost overflow) := by
  unfold State.runningReport
  dsimp only
  cases lost && (s.ch c).ms.motion.any Motion.unattendedClose with
  | true =>
    have raised : s.Acts (s.modCh c (·.raise .drift)) := State.acts_modCh (.raise _)
    cases overflow with
    | true => exact (raised.trans (State.acts_countRace _)).trans (State.acts_conditionStop _ _ _)
    | false => exact raised.trans (State.acts_conditionStop _ _ _)
  | false =>
    cases overflow with
    | false => exact State.acts_progress _ driving
    | true =>
      dsimp only
      rw [if_neg Bool.false_ne_true]
      split
      · split
        · exact s.acts_countRace.trans (State.acts_conditionStop _ _ _)
        · exact s.acts_countRace.trans (State.acts_progress _ (by rw [State.ch_countRace]; exact driving))
      · exact State.acts_conditionStop _ _ _

theorem State.acts_backoffReport {s : State} {c : ChanId} (overflow : Bool)
    (driving : (s.ch c).ms.state.driving = true) : s.Acts (s.backoffReport c overflow) := by
  unfold State.backoffReport
  split
  · exact .refl
  · exact State.acts_dwellIdle driving
  · exact State.acts_conditionStop _ _ _
  · split
    · exact s.acts_countRace.trans (State.acts_conditionStop _ _ _)
    · exact s.acts_countRace.trans (State.acts_dwellIdle (by rw [State.ch_countRace]; exact driving))

theorem State.acts_countReport (s : State) (c : ChanId) (commanded lost overflow : Bool) :
    s.Acts (s.countReport c commanded lost overflow) := by
  unfold State.countReport
  split
  · rename_i state
    exact State.acts_runningReport _ _ _ (by rw [state]; rfl)
  · rename_i state
    exact State.acts_runningReport _ _ _ (by rw [state]; rfl)
  · rename_i state
    exact State.acts_backoffReport _ (by rw [state]; rfl)
  · split
    · exact State.acts_losePositionQueued _ _
    · exact .refl
  all_goals exact .refl

theorem State.acts_count (s : State) (c : ChanId) (ph : HallPhase) : s.Acts (s.count c ph) := by
  have decoded : s.Acts (s.setCh c ((s.ch c).decodeCount ph)) := State.acts_setCh (.single (.count ph))
  unfold State.count
  dsimp only
  split
  · exact (decoded.tail (.effort _)).trans (State.acts_countReport _ _ _ _ _)
  · exact decoded.trans (State.acts_countReport _ _ _ _ _)

theorem State.acts_illegalTransition (s : State) (c : ChanId) : s.Acts (s.illegalTransition c) := by
  have seen : s.Acts (s.modCh c Chan.illegal) := State.acts_modCh .illegal
  unfold State.illegalTransition
  dsimp only
  split
  · exact seen
  · have lost : s.Acts ((s.modCh c Chan.illegal).modCh c Chan.losePosition) :=
      seen.trans (State.acts_modCh .losePosition)
    split
    · exact lost.trans (State.acts_conditionStop _ _ _)
    · split
      · exact lost.trans (State.acts_losePositionQueued _ _)
      · exact lost

theorem State.acts_intervalOverflow (s : State) (c : ChanId) : s.Acts (s.intervalOverflow c) := by
  unfold State.intervalOverflow
  dsimp only
  split
  · exact .refl
  · rename_i running
    have counted : s.Acts (s.modCh c (fun k => { k with pd :=
        { k.pd with timer := 0, prescaler := 0, overflow := k.pd.overflow + 1 } })) :=
      State.acts_modCh (.overflow (not_le.1 running))
    split
    · exact (counted.trans (State.acts_modCh .stopWatchdog)).trans (State.acts_stall _ _)
    · exact counted

theorem State.acts_watchdogExpiry (s : State) (c : ChanId) : s.Acts (s.watchdogExpiry c) := by
  unfold State.watchdogExpiry
  split
  · exact (State.acts_modCh .stopWatchdog).trans (State.acts_stall _ _)
  · exact .refl

/-! ## Evaluations -/

/-- An excess that a slot can hold (R95). -/
def Ending.inRange : Ending → Prop
  | .complete x _ => -2048 ≤ x ∧ x ≤ 2047
  | .stopped _ | .diverted => True

theorem Ending.inRange.slot {e : Ending} (h : e.inRange) : -2048 ≤ e.slot.value ∧ e.slot.value ≤ 2047 := by
  cases e with
  | complete x tag => exact h
  | stopped x => norm_num [Ending.slot]
  | diverted => norm_num [Ending.slot]

/-- An outcome of the stages: a Pn added to the scratch is 1 to 65535 (R76, R78), and an excess fits its slot (R82, R95). -/
def EvalOutcome.inRange (o : EvalOutcome) : Prop := (∀ n ∈ o.pn, 1 ≤ n ∧ n ≤ 65535) ∧ o.ending.inRange

theorem EvalInput.inRange_meet {i : EvalInput} {x : Condition} {raised : List Condition} {pn : Option Nat}
    {go : List Condition → EvalOutcome} (measured : ∀ n ∈ pn, 1 ≤ n ∧ n ≤ 65535) (on : ∀ r, (go r).inRange) :
    (i.meet x raised pn go).inRange := by
  unfold EvalInput.meet
  split
  · exact on _
  · exact ⟨measured, trivial⟩

theorem EvalInput.inRange_stage4 (i : EvalInput) {pn : Nat} (raised : List Condition) (held : 1 ≤ pn ∧ pn ≤ 65535) :
    (i.stage4 pn raised).inRange := by
  have measured : ∀ n ∈ some pn, 1 ≤ n ∧ n ≤ 65535 := by rintro n ⟨⟩; exact held
  unfold EvalInput.stage4
  dsimp only
  split
  · exact EvalInput.inRange_meet measured (fun _ => ⟨measured, by norm_num [Ending.inRange]⟩)
  · split
    · rename_i fits
      exact ⟨measured, fits⟩
    · refine EvalInput.inRange_meet measured (fun _ => ⟨measured, ?_⟩)
      simp only [Ending.inRange, clampInt]
      omega

theorem EvalInput.inRange_stage3 (i : EvalInput) (ue : Nat) (raised : List Condition) :
    (i.stage3 ue raised).inRange := by
  unfold EvalInput.stage3
  dsimp only
  split
  · exact EvalInput.inRange_meet (by simp) (fun _ => i.inRange_stage4 _ (by decide))
  · exact i.inRange_stage4 _ (by omega)

theorem EvalInput.inRange_stage2 (i : EvalInput) (u : Nat) (raised : List Condition) :
    (i.stage2 u raised).inRange := by
  unfold EvalInput.stage2
  dsimp only
  split
  · exact EvalInput.inRange_meet (by simp) (fun _ => ⟨by simp, trivial⟩)
  · exact i.inRange_stage3 _ _

theorem EvalInput.inRange_run (i : EvalInput) : i.run.inRange := by
  unfold EvalInput.run EvalInput.stage1
  split
  · exact ⟨by simp, trivial⟩
  · split
    · exact i.inRange_stage2 _ _
    · exact EvalInput.inRange_meet (by simp) (fun _ => i.inRange_stage2 _ _)

theorem State.acts_writeLane (s : State) (c : ChanId) : s.Acts (s.writeLane c) := by
  have marked : s.Acts (s.modCh c (fun k => { k with ee := { k.ee with lane := some s.clock.ms } })) :=
    State.acts_modCh (.lane _)
  unfold State.writeLane
  dsimp only
  split
  · exact marked.tail (.effort _)
  · exact marked

theorem State.acts_decide102 (s : State) (c : ChanId) (z : Zone) (a : Int) : s.Acts (s.decide102 c z a).2.2 := by
  unfold State.decide102
  dsimp only
  split
  · exact (s.acts_writeLane c).trans (State.acts_modCh (.history _))
  · exact State.acts_modCh (.history _)

theorem State.acts_stage6 (s : State) (c : ChanId) (p : Int) (e : Ending) : s.Acts (s.stage6 c p e).2.2 := by
  unfold State.stage6
  dsimp only
  split
  · exact .refl
  · split
    · split
      · exact .refl
      · split
        · exact .refl
        · exact s.acts_decide102 _ _ _
    · exact s.acts_decide102 _ _ _
    · exact .refl
    · exact .refl

theorem State.acts_taintByRoad (s : State) (c : ChanId) (inTravel : Bool) : s.Acts (s.taintByRoad c inTravel) := by
  unfold State.taintByRoad
  split
  · exact State.acts_modCh .setTaint
  · exact .refl

theorem State.acts_judge (s : State) (c : ChanId) (q : EvalRequest) (cell : Fin 64) {e : Ending} (fits : e.inRange) :
    s.Acts (s.judge c q cell e).2 := by
  have written : s.Acts (s.modCh c (fun k => { k with ee := k.ee.writeSlot e.slot })) :=
    State.acts_modCh (.writeSlot _ fits.slot)
  unfold State.judge
  dsimp only
  split
  · exact ((written.trans (State.acts_stage6 _ _ _ _)).trans (State.acts_modCh (.summary _ _ _ _))).trans
      (State.acts_taintByRoad _ _ _)
  · split
    · exact (written.trans (State.acts_modCh (.summary _ _ _ _))).trans (State.acts_taintByRoad _ _ _)
    · exact (State.acts_modCh (.summary _ _ _ _)).trans (State.acts_taintByRoad _ _ _)

theorem State.state_stage6 (s : State) (c : ChanId) (p : Int) (e : Ending) :
    ((s.stage6 c p e).2.2.ch c).ms.state = (s.ch c).ms.state := by
  obtain ⟨hold, history, lane, frame⟩ := s.stage6_frame c p e
  rw [frame, State.ch_setCh_self]

theorem State.state_judge (s : State) (c : ChanId) (q : EvalRequest) (cell : Fin 64) (e : Ending) :
    ((s.judge c q cell e).2.ch c).ms.state = (s.ch c).ms.state := by
  unfold State.judge
  dsimp only
  split
  · rw [State.taintByRoad_eq, State.ch_setCh_self, State.modCh_eq, State.ch_setCh_self]
    simp only [Chan.setSummary, State.state_stage6, State.modCh_eq, State.ch_setCh_self]
  · rw [State.taintByRoad_eq, State.ch_setCh_self, State.modCh_eq, State.ch_setCh_self]
    split <;> simp only [Chan.setSummary, State.modCh_eq, State.ch_setCh_self]

@[simp] theorem Chan.noteConditions_state (k : Chan) (overflowed : Bool) (raised : List Condition) :
    (k.noteConditions overflowed raised).ms.state = k.ms.state := by
  rw [Chan.noteConditions_eq]

@[simp] theorem Chan.addMeasurement_ms (k : Chan) (cell : Fin 64) (pn : Option Nat) :
    (k.addMeasurement cell pn).ms = k.ms := by
  cases pn <;> rfl

theorem State.acts_evaluate {s : State} {c : ChanId} {q : EvalRequest} (driving : (s.ch c).ms.state.driving = true) :
    s.Acts (s.evaluate c q) := by
  unfold State.evaluate
  dsimp only
  generalize cellIndex ((s.ch c).ms.active.get .travelLength) q.position = cell
  have inRange := (s.evalInput c q cell).inRange_run
  generalize (s.evalInput c q cell).run = o at inRange ⊢
  obtain ⟨raised, pn, ending⟩ := o
  obtain ⟨measured, fits⟩ := inRange
  have noted : s.Acts (s.modCh c (fun k => (k.noteConditions q.overflowed raised).addMeasurement cell pn)) :=
    State.acts_setCh ((ReflTransGen.single (.note _ _)).tail (.measure _ _ measured))
  dsimp only
  split
  · exact noted.trans (State.acts_conditionStop _ _ _)
  · have judged := noted.trans (State.acts_judge _ c q cell fits)
    split
    · exact judged
    · refine judged.trans (State.acts_pinch ?_)
      rw [State.state_judge, State.modCh_eq, State.ch_setCh_self, Chan.addMeasurement_ms, Chan.noteConditions_state]
      exact driving

theorem Chan.driving_of_stillIn {k : Chan} {q : EvalRequest} (h : k.stillIn q = true) : k.ms.state.driving = true := by
  simp only [Chan.stillIn, Bool.and_eq_true, Bool.or_eq_true, beq_iff_eq] at h
  obtain ⟨-, travel | ⟨startup, -⟩⟩ := h
  · rw [travel]; rfl
  · rw [startup]; rfl

theorem State.acts_evaluation (s : State) (c : ChanId) : s.Acts (s.evaluation c) := by
  unfold State.evaluation
  split
  · exact .refl
  · dsimp only
    split
    · rename_i still
      exact (State.Act.once (.effort _)).trans (State.acts_evaluate (Chan.driving_of_stillIn still))
    · exact State.Act.once (.effort _)

theorem State.acts_roadStale (s : State) : s.Acts s.roadStale := by
  unfold State.roadStale
  split
  · exact State.Act.once (.effort _)
  · exact .refl

end Sys2Proof.Machine
end

section
/-! PROOFS. Fault lines, requests, supply, resets and the link as runs of single updates, and so every step. -/

namespace Sys2Proof.Machine

open Relation

/-! ## Fault lines -/

/-- Judging a latch asserts no line. -/
theorem State.acts_judgeLatch (s : State) (l : LineId) : s.Acts (s.judgeLatch l) := by
  unfold State.judgeLatch
  dsimp only
  split
  · exact .refl
  · refine State.Act.once (.lines _ s.lineSampleIn fun j => ?_)
    by_cases same : l = j
    · subst same
      simp
    · simp [Vector.getElem_set_ne, Fin.val_ne_of_ne same]

theorem State.acts_judgeLatchesOf (s : State) (c : ChanId) : s.Acts (s.judgeLatchesOf c) := by
  refine State.acts_foldl (fun u l => ?_) s allLines
  split
  · exact u.acts_judgeLatch l
  · exact .refl

theorem FaultLine.settle_asserted (f : FaultLine) (level : Bool) : (f.settle level).asserted = f.asserted := by
  unfold FaultLine.settle
  split <;> rfl

theorem State.acts_setLine (s : State) (l : LineId) (f : FaultLine) (same : f.asserted = true → s.lines[l].asserted = true) :
    s.Acts { s with lines := s.lines.set l f } := by
  refine State.Act.once (.lines _ s.lineSampleIn fun j => ?_)
  by_cases here : l = j
  · subst here
    simpa using same
  · simp [Vector.getElem_set_ne, Fin.val_ne_of_ne here]

theorem State.acts_lineAsserts (s : State) (l : LineId) : s.Acts (s.lineAsserts l) := by
  unfold State.lineAsserts
  split
  · exact .refl
  · have settled := s.acts_setLine l (s.lines[l].settle true) (by rw [FaultLine.settle_asserted]; exact id)
    exact settled.tail (.assertLine l)

theorem State.acts_lineReleases (s : State) (l : LineId) : s.Acts (s.lineReleases l) := by
  unfold State.lineReleases
  split
  · have released := s.acts_setLine l { s.lines[l].settle false with asserted := false } (by simp)
    exact (released.trans (State.acts_postFaultLine _ _ _)).trans (State.acts_judgeLatch _ _)
  · exact .refl

/-! ## MOVE, STOP and expiries -/

theorem Chan.motionFits_of_idle {k : Chan} {m : Motion} (idle : k.ms.state = .idle) : k.MotionFits m := by
  simp [Chan.MotionFits, idle]

theorem Chan.motionFits_of_dwell {k : Chan} {m : Motion} (dwelling : k.ms.state = .dwell) : k.MotionFits m := by
  simp [Chan.MotionFits, dwelling]

theorem Chan.motionFits_of_queued {k : Chan} {old m : Motion} (queued : k.ms.state = .queued)
    (motion : k.ms.motion = some old) (sameClass : old.held = m.held) : k.MotionFits m := by
  simp [Chan.MotionFits, queued, motion, sameClass]

theorem Chan.motionFits_of_running {k : Chan} {old m : Motion} (running : k.ms.state = .startup ∨ k.ms.state = .travel)
    (motion : k.ms.motion = some old) (sameDir : old.dir = m.dir) : k.MotionFits m := by
  rcases running with running | running <;> simp [Chan.MotionFits, running, motion, sameDir]

theorem Chan.quietly_setMotion_leaseFor {k : Chan} {m : Motion} (ps : ParamSet) (fits : k.MotionFits m) :
    k.Quietly ((k.setMotion m).leaseFor m ps) := (ReflTransGen.single (.setMotion m fits)).tail (.lease _)

theorem State.acts_moveIdle {s : State} {c : ChanId} (m : Motion) (idle : (s.ch c).ms.state = .idle) :
    s.Acts (s.moveIdle c m) := by
  unfold State.moveIdle
  split
  · exact s.acts_postMotionEnd _ _
  · have written : s.Acts (s.modCh c (fun k => (k.setMotion m).leaseFor m k.ms.pending)) :=
      State.acts_setCh (Chan.quietly_setMotion_leaseFor _ (Chan.motionFits_of_idle idle))
    refine written.tail (.askSlot c m ?_ ?_)
    · rw [State.modCh_eq, State.ch_setCh_self]
      exact idle
    · rw [State.modCh_eq, State.ch_setCh_self]
      rfl

theorem State.acts_renewLease (s : State) (c : ChanId) (ps : Chan → ParamSet) :
    s.Acts (s.modCh c (fun k => k.renewLease (ps k))) := State.acts_modCh (.lease _)

theorem State.acts_moveQueued {s : State} {c : ChanId} {old : Motion} (m : Motion) (queued : (s.ch c).ms.state = .queued)
    (motion : (s.ch c).ms.motion = some old) : s.Acts (s.moveQueued c old m) := by
  unfold State.moveQueued
  split
  · exact s.acts_renewLease c _
  · exact .refl
  · rename_i n _
    split
    · exact State.Act.once (.endIdle _ _ (.inr queued))
    · dsimp only
      split
      · rename_i sameClass
        exact State.acts_setCh (Chan.quietly_setMotion_leaseFor _ (Chan.motionFits_of_queued queued motion sameClass))
      · have exchanged := (State.Act.once (.requeue c n queued)).trans
          (State.acts_modCh (c := c) (f := fun k => k.leaseFor n (s.ch c).ms.pending) (.lease _))
        have sameState : State.modCh { s.setCh c ((s.ch c).setMotion n) with
            arbiter := { s.arbiter with queue := requeue c n.held s.arbiter.queue } } c
              (fun k => k.leaseFor n (s.ch c).ms.pending) =
            { s.setCh c (((s.ch c).setMotion n).leaseFor n (s.ch c).ms.pending) with
              arbiter := { s.arbiter with queue := requeue c n.held s.arbiter.queue } } := by
          simp [State.modCh, State.setCh, State.ch]
        rw [sameState] at exchanged
        exact exchanged

theorem State.acts_moveDwell {s : State} {c : ChanId} (old m : Motion) (dwelling : (s.ch c).ms.state = .dwell) :
    s.Acts (s.moveDwell c old m) := by
  unfold State.moveDwell
  split
  · exact s.acts_renewLease c _
  · exact .refl
  · split
    · exact State.acts_modCh (.redirect _ dwelling)
    · exact State.acts_setCh (Chan.quietly_setMotion_leaseFor _ (Chan.motionFits_of_dwell dwelling))

theorem Motion.eq_of_joined {old m j : Motion} (joined : old.joined m = some j) : j = m := by
  unfold Motion.joined at joined
  split at joined <;> cases joined <;> rfl

theorem State.acts_moveRunning {s : State} {c : ChanId} {old : Motion} (m : Motion)
    (running : (s.ch c).ms.state = .startup ∨ (s.ch c).ms.state = .travel) (motion : (s.ch c).ms.motion = some old) :
    s.Acts (s.moveRunning c old m) := by
  have driving : (s.ch c).ms.state.driving = true := ChState.driving_iff.2 (running.imp_right .inl)
  unfold State.moveRunning
  split
  · exact s.acts_renewLease c _
  · split
    · rename_i sameDir
      split
      · rename_i j joined
        have exchanged : s.Acts (s.modCh c (fun k => (k.setMotion j).leaseFor j k.ms.active)) :=
          State.acts_setCh (Chan.quietly_setMotion_leaseFor _
            (Chan.motionFits_of_running running motion (sameDir.trans (Motion.eq_of_joined joined ▸ rfl))))
        dsimp only
        split
        · refine exchanged.trans (State.acts_dwellIdle ?_)
          rw [State.modCh_eq, State.ch_setCh_self]
          exact driving
        · exact exchanged
      · split
        · exact s.acts_renewLease c _
        · exact .refl
    · have turned : (s.ch c).Quietly ((s.ch c).enterDwell .startup) := .single (.dwell _ driving)
      exact State.acts_setCh (turned.trans (Chan.quietly_setMotion_leaseFor _ (Chan.motionFits_of_dwell rfl)))

theorem State.acts_acceptMove (s : State) (c : ChanId) (m : Motion) : s.Acts (s.acceptMove c m) := by
  unfold State.acceptMove
  split
  · rename_i idle
    exact State.acts_moveIdle m idle
  · rename_i queued motion
    exact State.acts_moveQueued m queued motion
  · rename_i startup motion
    exact State.acts_moveRunning m (.inl startup) motion
  · rename_i travel motion
    exact State.acts_moveRunning m (.inr travel) motion
  · rename_i dwelling _
    exact State.acts_moveDwell _ m dwelling
  · exact .refl

theorem State.acts_moveOne (s : State) (c : ChanId) (m : Motion) : s.Acts (s.moveOne c m).2 := by
  unfold State.moveOne
  split
  · exact .refl
  · exact s.acts_acceptMove c m

theorem State.acts_moveAll (kind : MoveKind) (d : Dir) (target : Nat) (cs : List ChanId) (s : State) :
    s.Acts (State.moveAll kind d target cs s).2 := by
  induction cs generalizing s with
  | nil => exact .refl
  | cons c cs ih => exact (s.acts_moveOne _ _).trans (ih _)

theorem Chan.dwelling_of_successor {k : Chan} {x : Successor} (h : k.successor = some x) : k.ms.state = .dwell :=
  Chan.dwell_of_successor h

theorem State.acts_stopOne (s : State) (c : ChanId) : s.Acts (s.stopOne c) := by
  unfold State.stopOne
  split
  · rename_i queued
    exact State.Act.once (.endIdle _ _ (.inr queued))
  · rename_i state
    exact State.acts_dwellIdle (by rw [state]; rfl)
  · rename_i state
    exact State.acts_dwellIdle (by rw [state]; rfl)
  · rename_i dwelling
    split
    · exact State.acts_modCh (.redirect _ dwelling)
    · exact State.acts_modCh (.redirect _ dwelling)
    · exact .refl
  · rename_i state
    exact State.acts_dwellIdle (by rw [state]; rfl)
  all_goals exact .refl

theorem State.acts_leaseExpiry (s : State) (c : ChanId) : s.Acts (s.leaseExpiry c) := by
  have stopped : s.Acts (s.modCh c Chan.stopLease) := State.acts_modCh (.lease _)
  have state : ((s.modCh c Chan.stopLease).ch c).ms.state = (s.ch c).ms.state := by
    rw [State.modCh_eq, State.ch_setCh_self]
    rfl
  unfold State.leaseExpiry
  split
  · dsimp only
    split
    · rename_i queued
      exact stopped.tail (.endIdle _ _ (.inr (state.trans queued)))
    · rename_i startup
      exact stopped.trans (State.acts_dwellIdle (by rw [state, startup]; rfl))
    · rename_i travel
      exact stopped.trans (State.acts_dwellIdle (by rw [state, travel]; rfl))
    · rename_i dwelling
      split
      · exact stopped.trans (State.acts_modCh (.redirect _ (state.trans dwelling)))
      · exact stopped
    all_goals exact stopped
  · exact .refl

theorem ChState.holding_of_dwell {st : ChState} (h : st = .dwell) : st.holding = true := by
  rw [h]
  rfl

theorem State.acts_dwellExpiry (s : State) (c : ChanId) : s.Acts (s.dwellExpiry c) := by
  have endsIdle {x : Successor} (r : MotionResult) (h : (s.ch c).successor = some x) : s.Acts (s.endIdle c r) :=
    State.Act.once (.endIdle _ _ (.inl (ChState.holding_of_dwell (Chan.dwell_of_successor h))))
  unfold State.dwellExpiry
  dsimp only
  split
  · rename_i succ
    exact endsIdle _ succ
  · rename_i succ
    split
    · split
      · exact endsIdle _ succ
      · exact State.acts_modCh (.startup _ _ (Chan.dwell_of_successor succ))
    · exact .refl
  · rename_i succ
    split
    · split
      · exact endsIdle _ succ
      · exact State.acts_modCh (.backoff _ _ (Chan.dwell_of_successor succ))
    · exact .refl
  · rename_i succ
    exact State.Act.once (.enterFault _ _ (ChState.holding_of_dwell (Chan.dwell_of_successor succ)))
  · exact .refl

theorem State.acts_backoffExpiry (s : State) (c : ChanId) : s.Acts (s.backoffExpiry c) := by
  unfold State.backoffExpiry
  split
  · rename_i state
    exact State.acts_dwellIdle (by rw [state]; rfl)
  · exact .refl

/-! ## Supply -/

theorem State.acts_cutoffOne (s : State) (c : ChanId) : s.Acts (s.cutoffOne c) := by
  have ends (r : MotionResult) (holding : (s.ch c).ms.state.holding = true) : s.Acts (s.endIdle c r) :=
    State.Act.once (.endIdle _ _ (.inl holding))
  have cut (holding : (s.ch c).ms.state.holding = true) :
      s.Acts ((s.modCh c Chan.discardScratch).endIdle c .supplyCutoff) := by
    refine (State.acts_modCh .discardScratch).tail (.endIdle _ _ (.inl ?_))
    rw [State.modCh_eq, State.ch_setCh_self]
    exact holding
  unfold State.cutoffOne
  split
  · rename_i state
    exact cut (by rw [state]; rfl)
  · rename_i state
    exact cut (by rw [state]; rfl)
  · rename_i state
    exact cut (by rw [state]; rfl)
  · rename_i state
    have holding := ChState.holding_of_dwell state
    split
    · exact ends _ holding
    · exact State.Act.once (.enterFault _ _ holding)
    · exact ends _ holding
  all_goals exact .refl

theorem pushLast_ne_nil {α : Type} {n : Nat} (pos : 0 < n) (xs : List α) (x : α) : pushLast n xs x ≠ [] := by
  intro empty
  have length := congrArg List.length empty
  simp [pushLast] at length
  omega

theorem Supply.sample_hist_ne_nil (su : Supply) (mv : Nat) : (su.sample mv).hist ≠ [] := pushLast_ne_nil (by decide) _ _

/-- A sample that brings the change into NORMAL ends with the grant pass; any other leaves NORMAL as it was or is none. -/
theorem State.acts_supplySample (s : State) (mv : Nat) : s.Acts (s.supplySample mv) := by
  have hist := s.supply.sample_hist_ne_nil mv
  have sampled (h : s.supply.hist ≠ [] → (s.supply.sample mv).state = .normal → s.supply.state = .normal) :
      s.Acts { s with supply := s.supply.sample mv } := State.Act.once (.supply _ (fun _ => hist) h)
  unfold State.supplySample
  dsimp only
  split
  · rename_i same
    refine sampled fun nonempty normal => ?_
    simp only [Bool.or_eq_true, List.isEmpty_iff, nonempty, false_or, beq_iff_eq] at same
    rw [← same, normal]
  · unfold State.supplyChanged
    dsimp only
    split
    · rename_i cutoff
      refine ((sampled fun _ normal => ?_).trans (State.acts_postSupply _)).trans
        (State.acts_foldl State.acts_cutoffOne _ _)
      rw [cutoff] at normal
      cases normal
    · exact (s.acts_notices _).tail (.supplyNormal (s.supply.sample mv) hist)
    · rename_i low
      refine (sampled fun _ normal => ?_).trans (State.acts_postSupply _)
      rw [low] at normal
      cases normal
    · rename_i high
      refine (sampled fun _ normal => ?_).trans (State.acts_postSupply _)
      rw [high] at normal
      cases normal

end Sys2Proof.Machine
end

section
/-! PROOFS. Resets, parameters, requests and the link as runs of single updates, and so every step. -/

namespace Sys2Proof.Machine

open Relation

/-! ## Resets -/

theorem State.ch_of_map {s : State} {f : Chan → Chan} {b : State} (h : b.chans = s.chans.map f) (c : ChanId) :
    b.ch c = f (s.ch c) := by
  simp [State.ch, h]

theorem State.op_powerOn (s : State) : s.Op s.powerOn := by
  have chans (c : ChanId) := State.ch_of_map (s := s) (b := { State.reset with
    chans := s.chans.map Chan.powerOn, lines := s.lines, supply := s.supply.firstSample, races := s.races,
    pending := s.pending }) rfl c
  refine .reset _ ⟨rfl, .inr rfl, fun c => ?_, fun c => .inr ?_, rfl, rfl, rfl, rfl, rfl⟩
  · rw [chans]
    exact .powerOn
  · rw [chans]
    rfl

theorem Chan.preserve_atRest (k : Chan) : k.preserve.ms.state = .idle ∨ k.preserve.ms.state = .disabled := by
  by_cases disabled : k.ms.state = .disabled <;> simp [Chan.preserve, disabled]

theorem State.op_preserve (s : State) : s.Op s.preserve := by
  have chans (c : ChanId) := State.ch_of_map (s := s) (b := { s with
    chans := s.chans.map Chan.preserve, supply := s.supply.firstSample, effort := .reset, arbiter := .reset,
    pool := { s.pool with free := allFree, waiting := [], lost := 0 }, link := .reset, clock := ⟨0, 0⟩ }) rfl c
  refine .reset _ ⟨rfl, .inl rfl, fun c => ?_, fun c => ?_, rfl, rfl, rfl, rfl, rfl⟩
  · rw [chans]
    exact .preserve
  · rw [chans]
    exact Chan.preserve_atRest _

theorem State.runs_takeReset (s : State) (m : ResetMode) : s.Runs (s.takeReset m) := by
  cases m with
  | full => exact s.op_powerOn.once
  | preserve => exact s.op_preserve.once

theorem Link.Lawful.sent {l : Link} (h : l.Lawful) : ({ l with sending := none, replies := l.replies.drop 1 } : Link).Lawful := by
  obtain ⟨room, counters⟩ := h
  exact ⟨by simp only [List.length_drop]; omega, counters⟩

theorem State.runs_frameEnd (s : State) : s.Runs s.frameEnd := by
  have sent : s.Runs { s with link := { s.link with sending := none, replies := s.link.replies.drop 1 } } :=
    State.Op.once (.link _ Link.Lawful.sent)
  unfold State.frameEnd
  split
  · exact .refl
  · dsimp only
    split
    · split
      · exact sent.trans (State.runs_takeReset _ _)
      · exact sent
    · exact State.Op.once (.link _ fun h => h)

/-! ## Parameters -/

theorem State.judgeChan_eq_none {s : State} {c : ChanId} {p : ChanParam} {v : Nat} (h : s.judgeChan c p v = none) :
    p.row.range.admits v = true ∧ (s.link.locked && p.row.safety) = false ∧ (s.ch c).configBusy p v = false ∧
      ¬(p = .enable ∧ v = 1 ∧ (s.ch c).ms.state = .disabled ∧ s.faultedBy c = true) := by
  unfold State.judgeChan at h
  split at h
  · cases h
  · split at h
    · cases h
    · split at h
      · cases h
      · split at h
        · cases h
        · rename_i admitted unlocked idle free
          exact ⟨by simpa using admitted, by simpa using unlocked, by simpa using idle, free⟩

/-- An accepted write of Enable: a DISABLED channel is enabled where no asserted line maps it, and a channel at rest
disabled. -/
theorem State.acts_writeEnable {s : State} {c : ChanId} {v : Nat} (accepted : s.judgeChan c .enable v = none) :
    s.Acts (s.writeEnable c v) := by
  obtain ⟨-, -, -, free⟩ := State.judgeChan_eq_none accepted
  unfold State.writeEnable
  split
  · rename_i disabled one
    refine State.Act.once (.enable c disabled ?_)
    simpa [disabled, of_decide_eq_true one] using free
  · rename_i idle _
    exact State.acts_modCh (.disable (.inl idle))
  · rename_i fault _
    exact (State.acts_modCh (.disable (.inr fault))).trans (State.acts_judgeLatchesOf _ _)
  · exact .refl

theorem Chan.disabled_of_geometry {k : Chan} {p : ChanParam} {v : Nat} (isGeometry : p = .endMode ∨ p = .travelLength)
    (accepted : k.configBusy p v = false) : k.ms.state = .disabled := by
  rcases isGeometry with rfl | rfl <;> simpa [Chan.configBusy] using accepted

theorem State.writeChan_plain {s : State} {c : ChanId} {p : ChanParam} {v : Nat}
    (plain : p ≠ .enable ∧ p ≠ .endMode ∧ p ≠ .travelLength) : s.writeChan c p v =
      s.setCh c { s.ch c with ms := { (s.ch c).ms with pending := (s.ch c).ms.pending.store p v } } := by
  obtain ⟨notEnable, notMode, notLength⟩ := plain
  unfold State.writeChan
  split
  · contradiction
  · contradiction
  · contradiction
  · rfl

theorem State.acts_writeChan {s : State} {c : ChanId} {p : ChanParam} {value : Nat}
    (accepted : s.judgeChan c p value = none) :
    s.Acts (s.writeChan c p (chanTaken (s.ch c).ms.pending p value)) := by
  obtain ⟨admitted, -, notBusy, -⟩ := State.judgeChan_eq_none accepted
  have takes : (s.ch c).Takes p (chanTaken (s.ch c).ms.pending p value) := ⟨value, admitted, rfl⟩
  by_cases isEnable : p = .enable
  · subst isEnable
    exact State.acts_writeEnable accepted
  · by_cases isGeometry : p = .endMode ∨ p = .travelLength
    · have written := State.acts_modCh (s := s) (c := c) (f := fun k => k.writeGeometry p _)
        (.geometry p _ isGeometry takes (Chan.disabled_of_geometry isGeometry notBusy))
      rcases isGeometry with rfl | rfl <;> exact written
    · have plain : p ≠ .enable ∧ p ≠ .endMode ∧ p ≠ .travelLength := ⟨isEnable, not_or.1 isGeometry⟩
      rw [State.writeChan_plain plain]
      exact State.acts_setCh (.single (.store p _ plain takes))

theorem State.acts_writeDev {s : State} {p : DevParam} {value : Nat} (accepted : s.judgeDev p = none) :
    s.Acts (s.writeDev p (p.taken value)) := by
  cases p with
  | slotCount =>
    exact State.Act.once (.device _ rfl (.inr ⟨State.noHolders_of_judgeDev accepted, taken_slotCount_bounds value⟩))
  | cmWindow | holdTime | roadStaleness => exact State.Act.once (.device _ rfl (.inl rfl))
  | lineMap l => exact State.Act.once (.writeMap l _)

/-! ## Requests -/

/-- An owner of a request that acts by single updates. -/
def ActsOwner (owner : State → Answer × State) : Prop := ∀ s : State, s.Acts (owner s).2

theorem actsOwner_answer (a : State → Answer) : ActsOwner (fun s => (a s, s)) := fun _ => .refl

theorem actsOwner_configure (ident ch : Byte) (value : Nat) : ActsOwner (reqConfigure ident ch value) := by
  intro s
  unfold reqConfigure
  split
  · exact .refl
  · split
    · exact .refl
    · split
      · exact .refl
      · rename_i accepted
        exact State.acts_writeChan accepted
  · split
    · exact .refl
    · rename_i accepted
      exact State.acts_writeDev accepted

theorem actsOwner_readParameter (ident ch : Byte) : ActsOwner (reqReadParameter ident ch) := by
  intro s
  unfold reqReadParameter
  split
  · exact .refl
  · split <;> exact .refl
  · exact .refl

theorem actsOwner_move (set : ChanSet) (kind dir : Byte) (target : Nat) : ActsOwner (reqMove set kind dir target) := by
  intro s
  unfold reqMove
  split
  · exact State.acts_moveAll _ _ _ _ _
  · exact .refl

theorem actsOwner_stop (set : ChanSet) : ActsOwner (reqStop set) := fun s => State.acts_foldl State.acts_stopOne s _

theorem actsOwner_vehicleState (level : Byte) (speed : Word16) : ActsOwner (reqVehicleState level speed) :=
  fun _ => State.Act.once (.effort _)

theorem actsOwner_channelStatus (ch : Byte) : ActsOwner (reqChannelStatus ch) := by
  intro s
  unfold reqChannelStatus
  split
  · exact .refl
  · dsimp only
    exact State.acts_modCh .readDifference

theorem actsOwner_readWindow (ch : Byte) : ActsOwner (reqReadWindow ch) := by
  intro s
  unfold reqReadWindow
  split <;> exact .refl

theorem actsOwner_clearConditions (ch : Byte) : ActsOwner (reqClearConditions ch) := by
  intro s
  unfold reqClearConditions
  split
  · exact .refl
  · dsimp only
    exact State.acts_modCh .clearSticky

theorem actsOwner_clearFault (ch : Byte) : ActsOwner (reqClearFault ch) := by
  intro s
  unfold reqClearFault
  split
  · exact .refl
  · split
    · rename_i faulted
      split
      · exact .refl
      · rename_i free
        exact (State.Act.once (.clearFault _ faulted (by simpa using free))).trans (State.acts_judgeLatchesOf _ _)
    · exact .refl

theorem actsOwner_profileRead (ch seg : Byte) : ActsOwner (reqProfileRead ch seg) := by
  intro s
  unfold reqProfileRead
  split
  · exact .refl
  · split <;> exact .refl

theorem actsOwner_profileLoad (ch seg : Byte) (images : List CellImage) : ActsOwner (reqProfileLoad ch seg images) := by
  intro s
  unfold reqProfileLoad
  split
  · exact .refl
  · split
    · exact .refl
    · split
      · exact .refl
      · split
        · exact .refl
        · split
          · exact .refl
          · split
            · exact .refl
            · dsimp only
              exact State.acts_modCh (.loadCells _ _)

theorem actsOwner_channelRestore (ch : Byte) (position travel reversal : Nat) :
    ActsOwner (reqChannelRestore ch position travel reversal) := by
  intro s
  unfold reqChannelRestore
  split
  · exact .refl
  · dsimp only
    split
    · exact .refl
    · rename_i inService
      split
      · exact .refl
      · dsimp only
        exact State.acts_modCh (.restore _ _ _ inService (min_le_right _ _) (min_le_right _ _) (min_le_right _ _))

theorem actsOwner_channelDefaults (ch : Byte) : ActsOwner (reqChannelDefaults ch) := by
  intro s
  unfold reqChannelDefaults
  split
  · exact .refl
  · split
    · exact .refl
    · split
      · exact .refl
      · exact State.acts_modCh .restoreDefaults

theorem actsOwner_incidentRelease (ident : Byte) : ActsOwner (reqIncidentRelease ident) := by
  intro s
  unfold reqIncidentRelease
  split
  · exact .refl
  · split
    · rename_i waiting
      exact State.Act.once (.release _ (by simpa using waiting))
    · exact .refl

theorem actsOwner_lock : ActsOwner reqLock := fun _ => State.Act.once .lock

theorem actsOwner_reset (mode : Byte) : ActsOwner (reqReset mode) := by
  intro s
  unfold reqReset
  split <;> exact .refl

/-! ## What the updates of a command leave alone -/

/-- The receiver, the reply queue, the frame being sent, the error counters, the clock and the waiting commands stand as
before. -/
structure State.Untouched (s t : State) : Prop where
  phase : t.link.phase = s.link.phase
  buffer : t.link.buffer = s.link.buffer
  gap : t.link.gap = s.link.gap
  replies : t.link.replies = s.link.replies
  sending : t.link.sending = s.link.sending
  lengthErrors : t.link.lengthErrors = s.link.lengthErrors
  crcErrors : t.link.crcErrors = s.link.crcErrors
  timeouts : t.link.timeouts = s.link.timeouts
  overruns : t.link.overruns = s.link.overruns
  clock : t.clock = s.clock
  pending : t.pending = s.pending

theorem State.Untouched.refl (s : State) : s.Untouched s := by constructor <;> rfl

theorem State.Untouched.trans {s t u : State} (h : s.Untouched t) (g : t.Untouched u) : s.Untouched u where
  phase := g.phase.trans h.phase
  buffer := g.buffer.trans h.buffer
  gap := g.gap.trans h.gap
  replies := g.replies.trans h.replies
  sending := g.sending.trans h.sending
  lengthErrors := g.lengthErrors.trans h.lengthErrors
  crcErrors := g.crcErrors.trans h.crcErrors
  timeouts := g.timeouts.trans h.timeouts
  overruns := g.overruns.trans h.overruns
  clock := g.clock.trans h.clock
  pending := g.pending.trans h.pending

theorem State.Untouched.foldl {α : Type} {f : State → α → State} (each : ∀ (s : State) (a : α), s.Untouched (f s a))
    (s : State) (xs : List α) : s.Untouched (xs.foldl f s) :=
  List.foldlRecOn xs f (.refl s) (fun u hu a _ => hu.trans (each u a))

theorem State.untouched_takeRecord (s : State) (c : ChanId) (q : IncidentCause) (p : Int) (known : Bool) :
    s.Untouched (s.takeRecord c q p known) := by
  constructor <;> simp

theorem State.untouched_stopToFault (s : State) (c : ChanId) (q : FaultCause) : s.Untouched (s.stopToFault c q) := by
  constructor <;> simp

theorem State.untouched_detach (s : State) (c : ChanId) : s.Untouched (s.detach c) := by
  constructor <;> simp

theorem State.untouched_grantPass (s : State) : s.Untouched s.grantPass := by
  constructor <;> simp

theorem State.untouched_grant (s : State) (c : ChanId) : s.Untouched (s.grant c) := by
  constructor <;> simp

theorem State.untouched_assertOn (s : State) (l : LineId) (c : ChanId) : s.Untouched (s.assertOn l c) := by
  have told : s.Untouched (((s.takeRecordHere c (.bridge l)).stopToFault c (.bridge l)).detach c) :=
    ((s.untouched_takeRecord _ _ _ _).trans (State.untouched_stopToFault _ _ _)).trans (State.untouched_detach _ _)
  unfold State.assertOn
  split
  · exact .refl s
  · exact .refl s
  all_goals exact told

theorem State.untouched_assertOnAll (s : State) (l : LineId) (cs : List ChanId) : s.Untouched (s.assertOnAll l cs) := by
  have told : s.Untouched ((s.openOrder (cs.filter s.assertable)).foldl (fun s c => s.assertOn l c) s.countRace) :=
    State.Untouched.trans (by constructor <;> rfl) (.foldl (fun u c => u.untouched_assertOn l c) _ _)
  unfold State.assertOnAll
  dsimp only
  split
  · exact told.trans (State.untouched_grantPass _)
  · exact told

theorem State.untouched_assertLine (s : State) (l : LineId) : s.Untouched (s.assertLine l) := by
  have told := State.untouched_assertOnAll { s with lines := s.lines.set l { s.lines[l] with asserted := true, latch := true } }
    l (chansOf s.device.maps[l])
  exact (State.Untouched.trans (by constructor <;> rfl) told).trans (by constructor <;> rfl)

theorem State.untouched_judgeLatch (s : State) (l : LineId) : s.Untouched (s.judgeLatch l) := by
  constructor <;> simp

theorem State.untouched_writeMap (s : State) (l : LineId) (v : Nat) : s.Untouched (s.writeMap l v) := by
  have stored : s.Untouched { s with device := s.device.put (.lineMap l) v } := by constructor <;> rfl
  unfold State.writeMap
  dsimp only
  split
  · exact (stored.trans (State.untouched_assertOnAll _ _ _)).trans (State.untouched_judgeLatch _ _)
  · exact stored.trans (State.untouched_judgeLatch _ _)

theorem State.untouched_askSlot (s : State) (c : ChanId) (m : Motion) : s.Untouched (s.askSlot c m) := by
  unfold State.askSlot
  split
  · exact s.untouched_grant c
  · exact State.Untouched.trans (by constructor <;> rfl) (State.untouched_grantPass _)

theorem State.Act.untouched {s t : State} (h : s.Act t) : s.Untouched t := by
  cases h with
  | chan => exact .mk rfl rfl rfl rfl rfl rfl rfl rfl rfl rfl rfl
  | record => exact s.untouched_takeRecord _ _ _ _
  | supplyNormal su => exact State.Untouched.trans (by constructor <;> rfl) (State.untouched_grantPass _)
  | endIdle c r => constructor <;> simp
  | enterFault c q => constructor <;> simp
  | askSlot c m => exact s.untouched_askSlot c m
  | assertLine l => exact s.untouched_assertLine l
  | writeMap l v => exact s.untouched_writeMap l v
  | _ => constructor <;> rfl

theorem State.Acts.untouched {s t : State} (h : s.Acts t) : s.Untouched t := by
  induction h with
  | refl => exact .refl s
  | tail _ last ih => exact ih.trans last.untouched

/-! ## The link -/

theorem State.runs_link (s : State) (l : Link) (lawful : s.link.Lawful → l.Lawful) : s.Runs { s with link := l } :=
  State.Op.once (.link l lawful)

theorem countUp_le (n : Nat) : countUp n ≤ 65535 := min_le_left _ _

theorem State.runs_dispatch (s : State) (type tag : Byte) {owner : State → Answer × State} (acts : ActsOwner owner) :
    s.Runs (s.dispatch type tag owner) := by
  unfold State.dispatch
  split
  · exact .refl
  · split
    · refine s.runs_link _ ?_
      rintro ⟨room, lengths, crcs, timeouts, -⟩
      exact ⟨room, lengths, crcs, timeouts, countUp_le _⟩
    · rename_i room
      refine (acts s).runs.trans (State.runs_link _ _ ?_)
      rintro ⟨-, counters⟩
      refine ⟨?_, counters⟩
      simp only [(acts s).untouched.replies, List.length_append, List.length_singleton]
      omega

/-- Each type with its payload length (Table 11-1) has one shape of payload, and so one owner. -/
theorem actsOwner_ownerOf {type : Byte} {p : List Byte} (fits : payloadLength type = some p.length) :
    ActsOwner (ownerOf type p) := by
  unfold payloadLength at fits
  unfold ownerOf
  generalize type.toNat = code at fits ⊢
  split at fits
  · match p, fits with | [], _ => exact actsOwner_answer _
  · match p, fits with | [_, _, _, _], _ => exact actsOwner_configure _ _ _
  · match p, fits with | [_, _], _ => exact actsOwner_readParameter _ _
  · match p, fits with | [_, _, _, _, _], _ => exact actsOwner_move _ _ _ _
  · match p, fits with | [_], _ => exact actsOwner_stop _
  · match p, fits with | [_, _, _], _ => exact actsOwner_vehicleState _ _
  · match p, fits with | [_], _ => exact actsOwner_channelStatus _
  · match p, fits with | [_], _ => exact actsOwner_readWindow _
  · match p, fits with | [_], _ => exact actsOwner_clearConditions _
  · match p, fits with | [_], _ => exact actsOwner_clearFault _
  · match p, fits with | [_, _], _ => exact actsOwner_profileRead _ _
  · match p, fits with | _ :: _ :: _, _ => exact actsOwner_profileLoad _ _ _
  · match p, fits with | [_, _, _, _, _, _], _ => exact actsOwner_channelRestore _ _ _ _
  · match p, fits with | [_], _ => exact actsOwner_channelDefaults _
  · match p, fits with | [], _ => exact actsOwner_answer _
  · match p, fits with | [_], _ => exact actsOwner_incidentRelease _
  · match p, fits with | [], _ => exact actsOwner_lock
  · match p, fits with | [_], _ => exact actsOwner_reset _
  · match p, fits with | [], _ => exact actsOwner_answer _
  · cases fits

theorem actsOwner_frameOwner (type : Byte) (p : List Byte) : ActsOwner (frameOwner type p) := by
  unfold frameOwner
  split
  · exact actsOwner_answer _
  · rename_i n isRequestType
    split
    · rename_i length
      exact actsOwner_ownerOf (length ▸ isRequestType)
    · exact actsOwner_answer _

theorem State.runs_frameComplete (s : State) (buffer : List Byte) : s.Runs (s.frameComplete buffer) := by
  unfold State.frameComplete
  split
  · exact s.runs_dispatch _ _ (actsOwner_frameOwner _ _)
  · exact .refl

theorem State.runs_receive (s : State) (b : Byte) : s.Runs (s.receive b) := by
  unfold State.receive
  dsimp only
  split
  · split
    · exact s.runs_link _ fun h => h
    · exact .refl
  · split
    · exact s.runs_link _ fun h => h
    · refine s.runs_link _ ?_
      rintro ⟨room, -, others⟩
      exact ⟨room, countUp_le _, others⟩
  · exact s.runs_link _ fun h => h
  · split
    · have hunting := s.runs_link { s.link with phase := .hunt, gap := none } fun h => h
      exact hunting.trans (State.runs_frameComplete _ _)
    · refine s.runs_link _ ?_
      rintro ⟨room, lengths, -, others⟩
      exact ⟨room, lengths, countUp_le _, others⟩

theorem State.runs_gapExpiry (s : State) : s.Runs s.gapExpiry := by
  unfold State.gapExpiry
  dsimp only
  split
  · exact .refl
  · split
    · exact s.runs_link _ fun h => h
    · refine s.runs_link _ ?_
      rintro ⟨room, lengths, crcs, -, overruns⟩
      exact ⟨room, lengths, crcs, countUp_le _, overruns⟩

theorem State.runs_serve (s : State) : s.Runs s.serve := by
  refine s.runs_link _ ?_
  rintro ⟨room, lengths, crcs, timeouts, overruns⟩
  constructor <;> simp [*]

/-! ## Steps -/

theorem runs_done {s u t : State} (runs : s.Runs u) (e : done u = .next t) : s.Runs t := by
  rw [done_eq_next] at e
  rw [← e]
  exact runs.trans u.runs_serve

theorem runs_request {s t : State} {type tag : Byte} {owner : State → Answer × State} (acts : ActsOwner owner)
    (e : request s type tag owner = .next t) : s.Runs t := runs_done (s.runs_dispatch type tag acts) e

theorem exec_runs {s t : State} {i : Instr} (e : exec i s = .next t) : s.Runs t := by
  cases i with
  | identify => exact runs_request (actsOwner_answer _) e
  | configure => exact runs_request (actsOwner_configure _ _ _) e
  | readParameter => exact runs_request (actsOwner_readParameter _ _) e
  | move => exact runs_request (actsOwner_move _ _ _ _) e
  | stop => exact runs_request (actsOwner_stop _) e
  | vehicleState => exact runs_request (actsOwner_vehicleState _ _) e
  | channelStatus => exact runs_request (actsOwner_channelStatus _) e
  | readWindow => exact runs_request (actsOwner_readWindow _) e
  | clearConditions => exact runs_request (actsOwner_clearConditions _) e
  | clearFault => exact runs_request (actsOwner_clearFault _) e
  | profileRead => exact runs_request (actsOwner_profileRead _ _) e
  | profileLoad => exact runs_request (actsOwner_profileLoad _ _ _) e
  | channelRestore => exact runs_request (actsOwner_channelRestore _ _ _ _) e
  | channelDefaults => exact runs_request (actsOwner_channelDefaults _) e
  | incidentRead => exact runs_request (actsOwner_answer _) e
  | incidentRelease => exact runs_request (actsOwner_incidentRelease _) e
  | lock => exact runs_request actsOwner_lock e
  | reset => exact runs_request (actsOwner_reset _) e
  | deviceStatus => exact runs_request (actsOwner_answer _) e
  | serialByteReceived b stopHigh =>
    have received : s.Runs (if stopHigh then s.receive b else s) := by
      split
      · exact s.runs_receive b
      · exact .refl
    exact runs_done received e
  | gapTimerExpiry => exact runs_done s.runs_gapExpiry e
  | transmitFrameEnd => exact runs_done s.runs_frameEnd e
  | powerOnReset => exact runs_done s.op_powerOn.once e
  | count c ph => exact runs_done (s.acts_count c ph).runs e
  | illegalTransition c => exact runs_done (s.acts_illegalTransition c).runs e
  | intervalTimerOverflow c => exact runs_done (s.acts_intervalOverflow c).runs e
  | stallWatchdogExpiry c => exact runs_done (s.acts_watchdogExpiry c).runs e
  | evaluation c => exact runs_done (s.acts_evaluation c).runs e
  | dwellExpiry c => exact runs_done (s.acts_dwellExpiry c).runs e
  | backoffTimerExpiry c => exact runs_done (s.acts_backoffExpiry c).runs e
  | leaseExpiry c => exact runs_done (s.acts_leaseExpiry c).runs e
  | rampStep c => exact runs_done (State.acts_modCh (c := c) .rampStep).runs e
  | commonModeHoldExpiry => exact runs_done (State.Act.once (.effort _)).runs e
  | roadLevelStalenessExpiry => exact runs_done s.acts_roadStale.runs e
  | supplySample mv => exact runs_done (s.acts_supplySample mv).runs e
  | faultLineAssertion l => exact runs_done (s.acts_lineAsserts l).runs e
  | faultLineRelease l => exact runs_done (s.acts_lineReleases l).runs e
  | pwmPeriodBoundary c => exact runs_done (State.acts_modCh (c := c) (.pwmBoundary s.supply)).runs e

theorem State.op_lines (s : State) (ls : Vector FaultLine 4) (n : Nat)
    (same : ∀ l : LineId, ls[l].asserted = s.lines[l].asserted) : s.Op { s with lines := ls, lineSampleIn := n } :=
  .act (.lines ls n fun l h => same l ▸ h)

theorem State.runs_linesTick (s : State) : s.Runs s.linesTick := by
  unfold State.linesTick
  split
  · exact (s.op_lines _ _ (by simp)).once
  · exact (s.op_lines _ _ (fun _ => rfl)).once

theorem State.runs_elapse (s : State) : s.Runs s.elapse := by
  have sampled : s.Runs (s.mapCh Chan.tick).linesTick := (State.Op.once .ticked).trans (State.runs_linesTick _)
  have supply : (s.mapCh Chan.tick).linesTick.supply = s.supply := by
    unfold State.linesTick
    split <;> rfl
  have link : (s.mapCh Chan.tick).linesTick.link = s.link := by
    unfold State.linesTick
    split <;> rfl
  refine ((sampled.tail (.act (.supply { s.supply with sampleIn := s.supply.sampleIn - 1 } ?_ ?_))).tail
    (.link s.link.tick ?_)).tail (.clock _)
  · rw [supply]
    exact id
  · rw [supply]
    exact fun _ => id
  · rw [link]
    exact id

theorem State.runs_idleStep (s : State) : s.Runs s.idleStep := by
  unfold State.idleStep
  split
  · exact s.runs_elapse
  · exact State.Op.once (.pending _)
  · exact (State.Op.once (.act (.races _))).tail (.pending _)

/-- Every step of the part is a run of its single updates. -/
theorem step_runs {s t : State} (e : step s = .next t) : s.Runs t := by
  unfold step at e
  split at e
  · exact Host.Outcome.next.inj e ▸ s.runs_idleStep
  · exact (State.Op.once (.pending _)).trans (exec_runs e)

/-- A law that every single update keeps is kept by every step. -/
theorem step_keeps {P : State → Prop} (once : ∀ {s t : State}, s.Op t → P s → P t) {s t : State} (e : step s = .next t)
    (h : P s) : P t := keeps_of_reflTransGen (r := State.Op) once (step_runs e) h

end Sys2Proof.Machine
end

section
/-! PROOFS. What the updates of the part do to one channel, the laws that look at one channel alone, and the laws of the
pool and the link. -/

namespace Sys2Proof.Machine

open Relation

/-! ## Every update of the part is a run of updates of each channel -/

/-- Every channel goes from one state of the part to another by updates of its own. -/
def State.ChanSteps (s t : State) : Prop := ∀ c, (s.ch c).Steps (t.ch c)

theorem State.ChanSteps.refl (s : State) : s.ChanSteps s := fun _ => .refl

theorem State.ChanSteps.of_same {s t : State} (h : ∀ c, t.ch c = s.ch c) : s.ChanSteps t := fun c => h c ▸ .refl

theorem State.ChanSteps.trans {s t u : State} (h : s.ChanSteps t) (g : t.ChanSteps u) : s.ChanSteps u :=
  fun c => (h c).trans (g c)

theorem State.ChanSteps.foldl {α : Type} {f : State → α → State} (each : ∀ (s : State) (a : α), s.ChanSteps (f s a))
    (s : State) (xs : List α) : s.ChanSteps (xs.foldl f s) :=
  List.foldlRecOn xs f (.refl s) (fun u hu a _ => hu.trans (each u a))

theorem State.ChanSteps.of_setCh {s t : State} {c : ChanId} {k : Chan} (h : (s.ch c).Steps k)
    (same : ∀ d, t.ch d = (s.setCh c k).ch d) : s.ChanSteps t := by
  intro d
  rw [same d, State.ch_setCh]
  split
  · rename_i here
    exact here ▸ h
  · exact .refl

theorem State.chanSteps_setCh {s : State} {c : ChanId} {k : Chan} (h : (s.ch c).Steps k) : s.ChanSteps (s.setCh c k) :=
  .of_setCh h fun _ => rfl

theorem State.chanSteps_grant (s : State) (c : ChanId) : s.ChanSteps (s.grant c) := by
  unfold State.grant
  split
  · exact .of_setCh (.single (.start s.supply _)) fun _ => rfl
  · exact .refl s

theorem State.chanSteps_grantHeads (n : Nat) (s : State) : s.ChanSteps (State.grantHeads n s) := by
  induction n generalizing s with
  | zero => exact .refl s
  | succ n ih =>
    unfold State.grantHeads
    split
    · exact .refl s
    · rename_i e rest _
      split
      · have granted := State.chanSteps_grant { s with arbiter := { s.arbiter with queue := rest } } e.chan
        exact granted.trans (ih _)
      · exact .refl s

theorem State.chanSteps_grantPass (s : State) : s.ChanSteps s.grantPass := State.chanSteps_grantHeads _ s

theorem State.chanSteps_leaveArbiter (s : State) (c : ChanId) : s.ChanSteps (s.leaveArbiter c) := by
  have detached : s.ChanSteps (s.detach c) := .of_same (State.ch_detach s c)
  unfold State.leaveArbiter
  split
  · exact detached.trans (State.chanSteps_grantPass _)
  · exact detached

theorem State.chanSteps_stopToFault (s : State) (c : ChanId) (q : FaultCause) : s.ChanSteps (s.stopToFault c q) := by
  refine .of_setCh (c := c) (.single (.enterFault q)) fun d => ?_
  rw [State.ch_setCh]
  split
  · rename_i here
    rw [here, State.ch_stopToFault_self]
  · rename_i other
    rw [State.ch_stopToFault _ _ _ _ other]

theorem State.chanSteps_endIdle (s : State) (c : ChanId) (r : MotionResult) : s.ChanSteps (s.endIdle c r) :=
  (State.ChanSteps.of_setCh (.single .enterIdle) (State.ch_postMotionEnd _ c r)).trans (State.chanSteps_leaveArbiter _ c)

theorem State.chanSteps_enterFault (s : State) (c : ChanId) (q : FaultCause) : s.ChanSteps (s.enterFault c q) :=
  (s.chanSteps_stopToFault c q).trans (State.chanSteps_leaveArbiter _ c)

theorem State.chanSteps_askSlot {s : State} {c : ChanId} (m : Motion) (idle : (s.ch c).ms.state = .idle) :
    s.ChanSteps (s.askSlot c m) := by
  unfold State.askSlot
  split
  · exact s.chanSteps_grant c
  · refine State.ChanSteps.trans ?_ (State.chanSteps_grantPass _)
    exact .of_setCh (.single (.queue idle)) fun _ => rfl

theorem State.chanSteps_assertOn (s : State) (l : LineId) (c : ChanId) : s.ChanSteps (s.assertOn l c) := by
  have told : s.ChanSteps (((s.takeRecordHere c (.bridge l)).stopToFault c (.bridge l)).detach c) :=
    ((State.ChanSteps.of_same (State.ch_takeRecord s _ _ _ _)).trans (State.chanSteps_stopToFault _ _ _)).trans
      (.of_same (State.ch_detach _ _))
  unfold State.assertOn
  split
  · exact .refl s
  · exact .refl s
  all_goals exact told

theorem State.chanSteps_assertOnAll (s : State) (l : LineId) (cs : List ChanId) : s.ChanSteps (s.assertOnAll l cs) := by
  have told : s.ChanSteps ((s.openOrder (cs.filter s.assertable)).foldl (fun s c => s.assertOn l c) s.countRace) :=
    (State.ChanSteps.of_same s.ch_countRace).trans (.foldl (fun u c => u.chanSteps_assertOn l c) _ _)
  unfold State.assertOnAll
  dsimp only
  split
  · exact told.trans (State.chanSteps_grantPass _)
  · exact told

theorem State.chanSteps_assertLine (s : State) (l : LineId) : s.ChanSteps (s.assertLine l) :=
  State.chanSteps_assertOnAll { s with lines := s.lines.set l { s.lines[l] with asserted := true, latch := true } } l
    (chansOf s.device.maps[l])

theorem State.chanSteps_writeMap (s : State) (l : LineId) (v : Nat) : s.ChanSteps (s.writeMap l v) := by
  have stored : s.ChanSteps { s with device := s.device.put (.lineMap l) v } := .of_same fun _ => rfl
  unfold State.writeMap
  dsimp only
  split
  · exact (stored.trans (State.chanSteps_assertOnAll _ _ _)).trans (.of_same (State.ch_judgeLatch _ _))
  · exact stored.trans (.of_same (State.ch_judgeLatch _ _))

theorem State.chanSteps_firstLineSamples (s : State) : s.ChanSteps s.firstLineSamples := by
  unfold State.firstLineSamples
  refine State.ChanSteps.trans ?_ (.foldl State.chanSteps_assertLine _ _)
  exact .of_same fun _ => rfl

theorem State.Act.chanSteps {s t : State} (h : s.Act t) : s.ChanSteps t := by
  cases h with
  | chan h => exact State.chanSteps_setCh h.steps
  | record c q p known => exact .of_same (State.ch_takeRecord s c q p known)
  | supplyNormal su => exact State.chanSteps_grantPass { s with supply := su }
  | endIdle c r => exact s.chanSteps_endIdle c r
  | enterFault c q => exact s.chanSteps_enterFault c q
  | clearFault c => exact State.chanSteps_setCh (.single .enterIdle)
  | enable c => exact State.chanSteps_setCh (.single .enable)
  | askSlot c m idle => exact State.chanSteps_askSlot m idle
  | requeue c m queued => exact .of_setCh (.single (.exchange m queued)) fun _ => rfl
  | assertLine l => exact s.chanSteps_assertLine l
  | writeMap l v => exact s.chanSteps_writeMap l v
  | _ => exact .of_same fun _ => rfl

theorem State.Op.chanSteps {s t : State} (h : s.Op t) : s.ChanSteps t := by
  cases h with
  | act h => exact h.chanSteps
  | ticked => exact fun c => State.ch_mapCh s Chan.tick c ▸ .single (.quiet .tick)
  | reset b base => exact State.ChanSteps.trans (fun c => .single (base.chans c)) b.chanSteps_firstLineSamples
  | _ => exact .of_same fun _ => rfl

/-- A law of single channels that every update of a channel keeps is kept by every step. -/
theorem step_keeps_chan {P : Chan → Prop} (once : ∀ {k u : Chan}, k.Step u → P k → P u) {s t : State}
    (e : step s = .next t) (h : ∀ c, P (s.ch c)) : ∀ c, P (t.ch c) :=
  step_keeps (P := fun s => ∀ c, P (s.ch c))
    (fun op h c => keeps_of_reflTransGen (r := Chan.Step) once (op.chanSteps c) (h c)) e h

end Sys2Proof.Machine
end

section
/-! PROOFS. The counters, the windows and the profiles of a channel stay lawful through every update. -/

namespace Sys2Proof.Machine

open Relation

/-! ## Counters (R26, R28, R33, R35, R36, R148, R153) -/

theorem length_pushLast_le {α : Type} (n : Nat) (xs : List α) (x : α) : (pushLast n xs x).length ≤ n := by
  simp only [pushLast, List.length_drop]
  omega

theorem Chan.CounterLaw.count {k : Chan} (ph : HallPhase) (h : k.CounterLaw) : (k.decodeCount ph).CounterLaw := by
  obtain ⟨reversal, -, -, travel, -, -, ring, confirm, blanking⟩ := h
  obtain ⟨newTimer, newOverflow, newTravel, -, newDifference, newRing, newConfirm, -⟩ := k.decodeCount_pd ph
  unfold Chan.CounterLaw
  rw [Chan.decodeCount_ms, newTimer, newOverflow, newTravel, newDifference, newRing, newConfirm]
  refine ⟨reversal, by omega, by omega, travel, by omega, by omega, ?_, ?_, blanking⟩
  · split
    · exact length_pushLast_le _ _ _
    · simp
  · split
    · exact confirm
    · split
      · omega
      · split <;> omega

theorem Chan.CounterLaw.blanking {k : Chan} (h : k.CounterLaw) : k.countBlanking.CounterLaw := by
  obtain ⟨reversal, low, high, travel, timer, overflow, ring, confirm, -⟩ := h
  unfold Chan.countBlanking
  dsimp only
  split <;> exact ⟨reversal, low, high, travel, timer, overflow, ring, confirm, min_le_left _ _⟩

theorem Decoder.flipA_fields (d : Decoder) : d.flipA = { d with filtA := d.flipA.filtA, histA := d.flipA.histA, pinA := d.flipA.pinA } := by
  unfold Decoder.flipA
  dsimp only
  split <;> rfl

theorem Decoder.flipB_fields (d : Decoder) : d.flipB = { d with filtB := d.flipB.filtB, histB := d.flipB.histB, pinB := d.flipB.pinB } := by
  unfold Decoder.flipB
  dsimp only
  split <;> rfl

/-- An illegal transition leaves the counters but for the timer, the ring and the confirmation, which it clears (R22). -/
theorem Chan.illegal_pd (k : Chan) : k.illegal.pd.timer = 0 ∧ k.illegal.pd.prescaler = 0 ∧ k.illegal.pd.overflow = 0 ∧
    k.illegal.pd.ring = [] ∧ k.illegal.pd.confirm = (if k.pd.confirm = 2 then 2 else 0) ∧
    k.illegal.pd.difference = k.pd.difference ∧ k.illegal.pd.travel = k.pd.travel ∧
    k.illegal.pd.position = k.pd.position ∧ k.illegal.pd.known = k.pd.known ∧ k.illegal.pd.watchdog = k.pd.watchdog ∧
    k.illegal.pd.drive = k.pd.drive := by
  have pd : k.illegal.pd = { k.pd.flipA.flipB.restartTimer with
      ring := [], confirm := if k.pd.flipA.flipB.restartTimer.confirm = 2 then 2 else 0 } := by
    unfold Chan.illegal
    dsimp only
    split <;> rfl
  rw [pd, Decoder.flipB_fields, Decoder.flipA_fields]
  exact ⟨rfl, rfl, rfl, rfl, rfl, rfl, rfl, rfl, rfl, rfl, rfl⟩

theorem Chan.illegal_ms (k : Chan) : k.illegal.ms = { k.ms with taint := k.ms.taint || k.inClosingMotion } := by
  unfold Chan.illegal
  dsimp only
  split <;> simp [*, Chan.setTaint, Chan.raise]

theorem Chan.illegal_ee (k : Chan) : k.illegal.ee = { k.ee with sticky := k.ee.sticky.raise .glitch } := by
  unfold Chan.illegal
  dsimp only
  split <;> rfl

@[simp] theorem Chan.illegal_out (k : Chan) : k.illegal.out = k.out := by
  unfold Chan.illegal
  dsimp only
  split <;> rfl

@[simp] theorem Chan.illegal_rps (k : Chan) : k.illegal.rps = k.rps := by
  unfold Chan.illegal
  dsimp only
  split <;> rfl

theorem Chan.CounterLaw.illegal {k : Chan} (h : k.CounterLaw) : k.illegal.CounterLaw := by
  obtain ⟨reversal, low, high, travel, -, -, -, -, blanking⟩ := h
  obtain ⟨newTimer, -, newOverflow, newRing, newConfirm, newDifference, newTravel, -⟩ := k.illegal_pd
  unfold Chan.CounterLaw
  rw [Chan.illegal_ms, newTimer, newOverflow, newRing, newConfirm, newDifference, newTravel]
  refine ⟨reversal, low, high, travel, by omega, by omega, by simp, ?_, blanking⟩
  split <;> omega

theorem Chan.CounterLaw.tick {k : Chan} (h : k.CounterLaw) : k.tick.CounterLaw := by
  obtain ⟨reversal, low, high, travel, timer, overflow, ring, confirm, blanking⟩ := h
  unfold Chan.tick Decoder.sampleTick
  dsimp only
  split <;>
  · unfold Decoder.timerTick
    dsimp only
    repeat' split
    all_goals exact ⟨reversal, low, high, travel, by dsimp only; omega, overflow, ring, confirm, blanking⟩

/-- A drive start (R30) clears what the decoder has counted of the drive before. -/
theorem Chan.CounterLaw.driveStart {k u : Chan} {stallMs : Nat} (h : k.CounterLaw) (pd : u.pd = k.pd.driveStart stallMs)
    (reversal : u.ms.reversal = k.ms.reversal) (blanking : u.ms.blanking ≤ 64) : u.CounterLaw := by
  obtain ⟨sevenTimes, low, high, travel, -, -, -, -, -⟩ := h
  unfold Chan.CounterLaw
  rw [pd, reversal]
  exact ⟨sevenTimes, low, high, travel, by simp [Decoder.driveStart], by simp [Decoder.driveStart],
    by simp [Decoder.driveStart], by simp [Decoder.driveStart], blanking⟩

theorem Chan.Quiet.counterLaw {k u : Chan} (step : k.Quiet u) (h : k.CounterLaw) : u.CounterLaw := by
  have law := h
  obtain ⟨reversal, low, high, travel, timer, overflow, ring, confirm, blanking⟩ := law
  cases step with
  | count ph => exact h.count ph
  | blanking => exact h.blanking
  | illegal => exact h.illegal
  | overflow running => exact ⟨reversal, low, high, travel, by simp, running, ring, confirm, blanking⟩
  | readDifference => exact ⟨reversal, by simp, by simp, travel, timer, overflow, ring, confirm, blanking⟩
  | countClose => exact ⟨by simp [Chan.countClose], low, high, min_le_left _ _, timer, overflow, ring, confirm, blanking⟩
  | clearReversal => exact ⟨by simp, low, high, travel, timer, overflow, ring, confirm, blanking⟩
  | restore p t r _ _ ht hr => exact ⟨hr, low, high, ht, timer, overflow, ring, confirm, blanking⟩
  | rampStep =>
    unfold Chan.rampStep
    split <;> exact h
  | pwmBoundary su =>
    unfold Chan.pwmBoundary
    split <;> exact h
  | tick => exact h.tick
  | note overflowed raised =>
    rw [Chan.noteConditions_eq]
    exact h
  | measure cell pn => cases pn <;> exact h
  | adapt unknown drift filling =>
    obtain ⟨pd, ms, -, -⟩ := k.adapt_fields unknown drift filling
    unfold Chan.CounterLaw
    rw [pd, ms]
    exact h
  | startup su m => exact h.driveStart rfl rfl (by simp [Chan.enterStartup])
  | backoff su target => exact h.driveStart rfl rfl blanking
  | pinched n _ _ atMost => exact ⟨atMost, low, high, travel, timer, overflow, ring, confirm, blanking⟩
  | loadCells g images => exact ⟨reversal, low, high, travel, timer, overflow, ring, confirm, blanking⟩
  | _ => exact h

theorem Chan.Step.counterLaw {k u : Chan} (step : k.Step u) (h : k.CounterLaw) : u.CounterLaw := by
  have law := h
  obtain ⟨reversal, low, high, travel, timer, overflow, ring, confirm, blanking⟩ := law
  cases step with
  | quiet quiet => exact quiet.counterLaw h
  | start su m => exact h.driveStart rfl rfl (by simp [Chan.enterStartup])
  | powerOn => simp [Chan.CounterLaw, Chan.powerOn, Chan.reset, Decoder.powerOn, Decoder.reset, Sequencer.reset]
  | preserve =>
    exact ⟨reversal, by simp [Chan.preserve, Decoder.preserve], by simp [Chan.preserve, Decoder.preserve], travel,
      by simp [Chan.preserve, Decoder.preserve], by simp [Chan.preserve, Decoder.preserve],
      by simp [Chan.preserve, Decoder.preserve], by simp [Chan.preserve, Decoder.preserve], blanking⟩
  | _ => exact h

/-! ## Windows (R95, R96, R103) -/

theorem Chan.WindowLaw.of_ee {k u : Chan} (h : k.WindowLaw) (slots : u.ee.slots = k.ee.slots)
    (history : u.ee.history = k.ee.history) : u.WindowLaw := by
  unfold Chan.WindowLaw
  rw [slots, history]
  exact h

/-- An emptied window keeps its values (R96). -/
theorem Excess.emptyWindow_value (e : Excess) (i : Fin 8) : (e.emptyWindow.slots[i] : Slot).value = e.slots[i].value := by
  simp [Excess.emptyWindow]

/-- The window emptied, with the history kept or cleared. -/
theorem Chan.WindowLaw.emptied {k u : Chan} (h : k.WindowLaw) (slots : u.ee.slots = k.ee.emptyWindow.slots)
    (history : u.ee.history = k.ee.history ∨ u.ee.history = clearHistory) : u.WindowLaw := by
  obtain ⟨values, eight⟩ := h
  refine ⟨fun i => ?_, ?_⟩
  · rw [slots, Excess.emptyWindow_value]
    exact values i
  · rcases history with same | cleared
    · rw [same, eight]
    · rw [cleared]
      rfl

theorem Chan.WindowLaw.writeSlot {k : Chan} {sl : Slot} (h : k.WindowLaw) (inRange : -2048 ≤ sl.value ∧ sl.value ≤ 2047) :
    Chan.WindowLaw { k with ee := k.ee.writeSlot sl } := by
  obtain ⟨values, eight⟩ := h
  obtain ⟨-, written, others, -⟩ := k.ee.writeSlot_fields sl
  refine ⟨fun i => ?_, eight⟩
  by_cases top : i = k.ee.top + 1
  · rw [top, written]
    exact inRange
  · rw [others i top]
    exact values i

theorem Chan.Quiet.windowLaw {k u : Chan} (step : k.Quiet u) (h : k.WindowLaw) : u.WindowLaw := by
  cases step with
  | count ph =>
    have ee := k.decodeCount_ee_sticky ph
    exact h.of_ee (by rw [ee]) (by rw [ee])
  | blanking =>
    unfold Chan.countBlanking
    dsimp only
    split
    · exact h.emptied rfl (.inl rfl)
    · exact h
  | illegal => exact h.of_ee (by rw [Chan.illegal_ee]) (by rw [Chan.illegal_ee])
  | rampStep =>
    unfold Chan.rampStep
    split <;> exact h
  | pwmBoundary su =>
    unfold Chan.pwmBoundary
    split <;> exact h
  | note overflowed raised =>
    rw [Chan.noteConditions_eq]
    exact h
  | measure cell pn => cases pn <;> exact h
  | writeSlot sl inRange => exact h.writeSlot inRange
  | history b =>
    obtain ⟨values, eight⟩ := h
    exact ⟨values, by simp [Excess.shiftHistory, eight]⟩
  | adapt unknown drift filling =>
    obtain ⟨-, -, ee, -⟩ := k.adapt_fields unknown drift filling
    exact h.of_ee (by rw [ee]) (by rw [ee])
  | startup su m => exact h.emptied rfl (.inr rfl)
  | restoreDefaults => exact h.emptied rfl (.inr rfl)
  | _ => exact h.of_ee rfl rfl

theorem Chan.Step.windowLaw {k u : Chan} (step : k.Step u) (h : k.WindowLaw) : u.WindowLaw := by
  cases step with
  | quiet quiet => exact quiet.windowLaw h
  | start su m => exact h.emptied rfl (.inr rfl)
  | preserve => exact h.emptied rfl (.inr rfl)
  | powerOn => simp [Chan.WindowLaw, Chan.powerOn, Chan.reset, Excess.reset, clearHistory]
  | _ => exact h.of_ee rfl rfl

theorem Excess.windowSum_bounds {e : Excess} (h : ∀ i : Fin 8, -2048 ≤ e.slots[i].value ∧ e.slots[i].value ≤ 2047) :
    -2048 * 8 ≤ e.windowSum ∧ e.windowSum ≤ 2047 * 8 := by
  have counted (i : Fin 8) : -2048 ≤ (if e.slots[i].tag = .empty then 0 else e.slots[i].value) ∧
      (if e.slots[i].tag = .empty then 0 else e.slots[i].value) ≤ 2047 := by
    have inRange := h i
    split <;> omega
  simp only [Excess.windowSum, Excess.newestFirst, List.map_cons, List.map_nil, List.foldl_cons, List.foldl_nil]
  have c0 := counted e.top
  have c1 := counted (e.top - 1)
  have c2 := counted (e.top - 2)
  have c3 := counted (e.top - 3)
  have c4 := counted (e.top - 4)
  have c5 := counted (e.top - 5)
  have c6 := counted (e.top - 6)
  have c7 := counted (e.top - 7)
  omega

theorem Chan.WindowLaw.average {k : Chan} (h : k.WindowLaw) {a : Int} (average : k.ee.average = some a) :
    -2048 ≤ a ∧ a ≤ 2047 := by
  obtain ⟨low, high⟩ := Excess.windowSum_bounds h.1
  simp only [Excess.average, Option.ite_none_right_eq_some, Option.some.injEq] at average
  rw [Int.fdiv_eq_ediv_of_nonneg _ (by decide)] at average
  omega

/-! ## Profiles (R78, R117, R122 to R125, R130, R134) -/

/-- Every cell of a profile is lawful; a structure, so that no proof evaluates the cells. -/
structure CellsLawful (cells : Vector Cell 64) : Prop where
  each : ∀ i : Fin 64, cells[i].Lawful

/-- Every pair of a scratch is lawful. -/
structure ScratchLawful (scratch : Vector ScratchPair 64) : Prop where
  each : ∀ i : Fin 64, scratch[i].Lawful

theorem Chan.profileLaw_iff {k : Chan} : k.ProfileLaw ↔ CellsLawful k.rps.cells ∧ ScratchLawful k.rps.scratch :=
  ⟨fun ⟨cells, scratch⟩ => ⟨⟨cells⟩, ⟨scratch⟩⟩, fun ⟨cells, scratch⟩ => ⟨cells.each, scratch.each⟩⟩

theorem clearScratch_lawful : ScratchLawful clearScratch := ⟨fun i => by simp [clearScratch, ScratchPair.Lawful]⟩

/-- New cells that are lawful, with the scratch kept or cleared. -/
theorem Chan.ProfileLaw.of_cells {k u : Chan} (h : k.ProfileLaw) {cells : Vector Cell 64} (lawful : CellsLawful cells)
    (written : u.rps.cells = cells) (scratch : u.rps.scratch = k.rps.scratch ∨ u.rps.scratch = clearScratch) :
    u.ProfileLaw := by
  obtain ⟨-, pairs⟩ := Chan.profileLaw_iff.1 h
  rw [Chan.profileLaw_iff, written]
  refine ⟨lawful, ?_⟩
  rcases scratch with same | cleared
  · rw [same]
    exact pairs
  · rw [cleared]
    exact clearScratch_lawful

theorem Chan.ProfileLaw.of_rps {k u : Chan} (h : k.ProfileLaw) (cells : u.rps.cells = k.rps.cells)
    (scratch : u.rps.scratch = k.rps.scratch ∨ u.rps.scratch = clearScratch) : u.ProfileLaw :=
  h.of_cells (Chan.profileLaw_iff.1 h).1 cells scratch

theorem Cell.blank_lawful : Cell.blank.Lawful := ⟨rfl, rfl, rfl⟩

theorem CellImage.taken_lawful (i : CellImage) : (CellImage.taken i).Lawful := by
  unfold CellImage.taken
  split
  · simp only [Cell.Lawful, clampNat]
    omega
  · exact Cell.blank_lawful

/-- The mean of a measured pair is a normalized period (R122). -/
theorem ScratchPair.Lawful.mean {p : ScratchPair} (h : p.Lawful) (measured : p.count ≠ 0) :
    1 ≤ p.mean ∧ p.mean ≤ 65535 := by
  obtain ⟨low, high, -⟩ := h
  have pos : 0 < p.count := Nat.pos_of_ne_zero measured
  exact ⟨(Nat.le_div_iff_mul_le pos).2 (by omega), (Nat.div_le_iff_le_mul_add_pred pos).2 (by rw [mul_comm]; omega)⟩

theorem ScratchPair.Lawful.add {p : ScratchPair} (h : p.Lawful) {n : Nat} (inRange : 1 ≤ n ∧ n ≤ 65535) :
    (p.add n).Lawful := by
  obtain ⟨low, high, few⟩ := h
  unfold ScratchPair.add
  split
  · simp only [ScratchPair.Lawful]
    omega
  · exact ⟨low, high, few⟩

theorem Cell.Lawful.adapt {c : Cell} {p : ScratchPair} (shift : Nat) (h : c.Lawful) (hp : p.Lawful) :
    (c.adapt p shift).Lawful := by
  unfold Cell.adapt
  split
  · exact h
  · rename_i measured
    obtain ⟨low, high⟩ := hp.mean measured
    split
    · exact ⟨low, high, le_rfl, by norm_num, by norm_num⟩
    · rename_i valid
      simp only [Cell.Lawful, valid] at h
      obtain ⟨refLow, refHigh, counted, atMost, strikes⟩ := h
      split
      · simp only [Cell.Lawful, Cell.adaptInBand, valid, clampInt]
        omega
      · unfold Cell.adaptOutOfBand
        split
        · simp only [Cell.Lawful, valid]
          omega
        · simp only [Cell.Lawful, valid]
          exact ⟨refLow, refHigh, counted, atMost, by omega⟩

theorem fillGaps_lawful {cells after : Vector Cell 64} {scratch : Vector ScratchPair 64} {l z : Nat}
    (lawful : CellsLawful after)
    (filled : ∀ i : Fin 64, firstFilledAt cells scratch i = true → after[i].state = .valid) :
    CellsLawful (fillGaps cells after scratch l z) := by
  refine ⟨fun i => ?_⟩
  simp only [fillGaps, Fin.getElem_fin, Vector.getElem_ofFn, Fin.eta]
  split
  · rename_i j source
    have first : firstFilledAt cells scratch j = true := by
      simp only [gapSource, Option.ite_none_right_eq_some] at source
      exact (List.mem_filter.1 (nearestCell_spec i _ j source.2).1).2
    have anchor := lawful.each j
    rw [Cell.Lawful, filled j first] at anchor
    obtain ⟨low, high, -⟩ := anchor
    exact ⟨low, high, le_rfl, by norm_num, by norm_num⟩
  · exact lawful.each i

/-- A closed end clears the scratch and leaves the cells, adapts them, or adapts them and fills the gaps. -/
theorem Chan.adapt_rps (k : Chan) (unknown drift filling : Bool) :
    let after := adaptCells k.rps.cells k.rps.scratch (k.ms.active.get .adaptShift)
    (k.adapt unknown drift filling).rps.scratch = clearScratch ∧
      ((k.adapt unknown drift filling).rps.cells = k.rps.cells ∨ (k.adapt unknown drift filling).rps.cells = after ∨
        (k.adapt unknown drift filling).rps.cells = fillGaps k.rps.cells after k.rps.scratch
          (k.ms.active.get .travelLength) (k.ms.active.get .zSeal)) := by
  unfold Chan.adapt
  dsimp only
  split
  · cases filling with
    | true => exact ⟨rfl, .inr (.inr rfl)⟩
    | false => exact ⟨rfl, .inr (.inl rfl)⟩
  · exact ⟨rfl, .inl rfl⟩

theorem adaptCells_lawful {cells : Vector Cell 64} {scratch : Vector ScratchPair 64} (shift : Nat)
    (hc : CellsLawful cells) (hs : ScratchLawful scratch) : CellsLawful (adaptCells cells scratch shift) := by
  refine ⟨fun i => ?_⟩
  simp only [adaptCells, Fin.getElem_fin, Vector.getElem_ofFn]
  exact (hc.each i).adapt _ (hs.each i)

theorem adaptCells_firstFilled {cells : Vector Cell 64} {scratch : Vector ScratchPair 64} {shift : Nat} {i : Fin 64}
    (first : firstFilledAt cells scratch i = true) : (adaptCells cells scratch shift)[i].state = .valid := by
  simp only [firstFilledAt, Bool.and_eq_true, decide_eq_true_eq, Fin.getElem_fin] at first
  obtain ⟨measured, empty⟩ := first
  simp only [adaptCells, Fin.getElem_fin, Vector.getElem_ofFn]
  simp [Cell.adapt, measured, empty]

/-- An adaptation leaves lawful cells (R122 to R125, R130) and a cleared scratch (R79). -/
theorem Chan.ProfileLaw.adapt {k : Chan} (unknown drift filling : Bool) (h : k.ProfileLaw) :
    (k.adapt unknown drift filling).ProfileLaw := by
  obtain ⟨cells, scratch⟩ := Chan.profileLaw_iff.1 h
  have adapted := adaptCells_lawful (k.ms.active.get .adaptShift) cells scratch
  obtain ⟨cleared, barred | after | completed⟩ := k.adapt_rps unknown drift filling
  · exact h.of_rps barred (.inr cleared)
  · exact h.of_cells adapted after (.inr cleared)
  · exact h.of_cells (fillGaps_lawful adapted fun i => adaptCells_firstFilled) completed (.inr cleared)

theorem Chan.ProfileLaw.measure {k : Chan} {cell : Fin 64} {pn : Option Nat}
    (inRange : ∀ n ∈ pn, 1 ≤ n ∧ n ≤ 65535) (h : k.ProfileLaw) : (k.addMeasurement cell pn).ProfileLaw := by
  cases pn with
  | none => exact h
  | some n =>
    obtain ⟨cells, scratch⟩ := h
    refine ⟨cells, fun i => ?_⟩
    rw [Chan.addMeasurement_scratch]
    split
    · exact (scratch cell).add (inRange n rfl)
    · exact scratch i

theorem loadSegment_lawful {cells : Vector Cell 64} (lawful : CellsLawful cells) (g : Fin 8)
    (images : List CellImage) : CellsLawful (loadSegment cells g (images.map CellImage.taken)) := by
  refine ⟨fun i => ?_⟩
  simp only [loadSegment, Fin.getElem_fin, Vector.getElem_ofFn]
  split
  · rw [List.getD_eq_getElem?_getD, List.getElem?_map]
    cases images[i.val % 8]? with
    | none => exact lawful.each i
    | some image => exact CellImage.taken_lawful image
  · exact lawful.each i

theorem blankCells_lawful : CellsLawful (Vector.replicate 64 .blank) := by
  refine ⟨fun i => ?_⟩
  simp only [Fin.getElem_fin, Vector.getElem_replicate]
  exact Cell.blank_lawful

theorem Chan.rps_enterStartup (k : Chan) (su : Supply) (m : Motion) : (k.enterStartup su m).rps.cells = k.rps.cells ∧
    ((k.enterStartup su m).rps.scratch = k.rps.scratch ∨ (k.enterStartup su m).rps.scratch = clearScratch) := by
  unfold Chan.enterStartup
  dsimp only
  split
  · exact ⟨rfl, .inr rfl⟩
  · exact ⟨rfl, .inl rfl⟩

theorem Chan.Quiet.profileLaw {k u : Chan} (step : k.Quiet u) (h : k.ProfileLaw) : u.ProfileLaw := by
  cases step with
  | count ph => exact h.of_rps (by rw [Chan.decodeCount_rps]) (.inl (by rw [Chan.decodeCount_rps]))
  | blanking =>
    unfold Chan.countBlanking
    dsimp only
    split <;> exact h
  | illegal => exact h.of_rps (by rw [Chan.illegal_rps]) (.inl (by rw [Chan.illegal_rps]))
  | rampStep =>
    unfold Chan.rampStep
    split <;> exact h
  | pwmBoundary su =>
    unfold Chan.pwmBoundary
    split <;> exact h
  | note overflowed raised =>
    rw [Chan.noteConditions_eq]
    exact h
  | measure cell pn inRange => exact h.measure inRange
  | adapt unknown drift filling => exact h.adapt unknown drift filling
  | loadCells g images => exact h.of_cells (loadSegment_lawful (Chan.profileLaw_iff.1 h).1 g images) rfl (.inl rfl)
  | emptyProfile => exact h.of_cells blankCells_lawful rfl (.inl rfl)
  | geometry p v => exact h.of_cells blankCells_lawful rfl (.inl rfl)
  | discardScratch | dwell => exact h.of_rps rfl (.inr rfl)
  | startup su m => exact h.of_rps (k.rps_enterStartup su m).1 (k.rps_enterStartup su m).2
  | _ => exact h.of_rps rfl (.inl rfl)

theorem Chan.Step.profileLaw {k u : Chan} (step : k.Step u) (h : k.ProfileLaw) : u.ProfileLaw := by
  cases step with
  | quiet quiet => exact quiet.profileLaw h
  | enterFault | preserve => exact h.of_rps rfl (.inr rfl)
  | start su m => exact h.of_rps (k.rps_enterStartup su m).1 (k.rps_enterStartup su m).2
  | powerOn => exact h.of_cells blankCells_lawful rfl (.inr rfl)
  | _ => exact h.of_rps rfl (.inl rfl)

/-- Settles O15: each update of a channel leaves lawful cells and scratch pairs. -/
theorem profileCellsStayLawful : Obligations.ProfileCellsStayLawful :=
  fun _ _ law e => step_keeps_chan Chan.Step.profileLaw e law

end Sys2Proof.Machine
end

section
/-! PROOFS. The parameter sets stay ordered, a KNOWN position stays in its bounds and the outputs follow the state, through
every update of a channel. -/

namespace Sys2Proof.Machine

open Relation

/-! ## One set of parameters (R5 to R7) -/

theorem clampNat_bounds {lo hi : Nat} (v : Nat) (h : lo ≤ hi) : lo ≤ clampNat lo hi v ∧ clampNat lo hi v ≤ hi := by
  simp only [clampNat]
  omega

/-- Every value of a set is in its range. -/
def ParamSet.InRange (ps : ParamSet) : Prop := ∀ p : ChanParam, p.row.range.holds (ps.get p)

theorem ParamSet.InRange.set {ps : ParamSet} {p : ChanParam} {v : Nat} (h : ps.InRange) (hv : p.row.range.holds v) :
    (ps.set p v).InRange := by
  intro q
  rw [ParamSet.get_set]
  split
  · rename_i here
    exact here ▸ hv
  · exact h q

/-- A value that may be stored: in its parameter's range, and within the bounds that other parameters give it (R7). -/
def ParamSet.Admits (ps : ParamSet) (p : ChanParam) (v : Nat) : Prop :=
  p.row.range.holds v ∧ (p = .persistenceCount → v ≤ ps.get .persistenceDepth) ∧
    (p = .zPinch → ps.get .zSeal ≤ v ∧ v ≤ ps.get .travelLength) ∧ (p = .zSeal → v ≤ ps.get .travelLength)

theorem ParamSet.Ordered.bounds {ps : ParamSet} (h : ps.Ordered) :
    (64 ≤ ps.get .travelLength ∧ ps.get .travelLength ≤ 4095) ∧ (1 ≤ ps.get .persistenceDepth ∧ ps.get .persistenceDepth ≤ 8) ∧
      (1 ≤ ps.get .persistenceCount ∧ ps.get .persistenceCount ≤ 8) ∧ ps.get .zSeal ≤ 255 ∧ ps.get .zPinch ≤ 4095 :=
  ⟨h.1 .travelLength, h.1 .persistenceDepth, h.1 .persistenceCount, (h.1 .zSeal).2, (h.1 .zPinch).2⟩

theorem ChanParam.holds_of_admits {p : ChanParam} {v : Nat} (h : p.row.range.admits v = true) :
    p.row.range.holds (match p.row.range with | .codes _ => v | .span lo hi => clampNat lo hi v) := by
  have ordered : ∀ lo hi, p.row.range = .span lo hi → lo ≤ hi := by
    cases p <;> rintro lo hi ⟨⟩ <;> norm_num
  cases range : p.row.range with
  | codes cs =>
    rw [range] at h
    exact List.contains_iff_mem.1 h
  | span lo hi => exact clampNat_bounds v (ordered lo hi range)

/-- What is taken may be stored. -/
theorem ParamSet.Ordered.admits_taken {ps : ParamSet} (h : ps.Ordered) {p : ChanParam} {value : Nat}
    (admitted : p.row.range.admits value = true) : ps.Admits p (chanTaken ps p value) := by
  obtain ⟨⟨l64, l4095⟩, ⟨k1, k8⟩, -, -, -⟩ := h.bounds
  obtain ⟨-, -, zones, pinch⟩ := h
  unfold ParamSet.Admits chanTaken
  split
  · have taken := clampNat_bounds value k1
    exact ⟨⟨taken.1, taken.2.trans k8⟩, fun _ => taken.2, by simp, by simp⟩
  · have taken := clampNat_bounds value (zones.trans pinch)
    exact ⟨⟨Nat.zero_le _, taken.2.trans l4095⟩, by simp, fun _ => taken, by simp⟩
  · have taken := clampNat_bounds value (Nat.zero_le (min 255 (ps.get .travelLength)))
    exact ⟨⟨taken.1, taken.2.trans (min_le_left _ _)⟩, by simp, by simp, fun _ => taken.2.trans (min_le_right _ _)⟩
  · rename_i notCount notPinch notSeal
    exact ⟨ChanParam.holds_of_admits admitted, fun e => (notCount e).elim, fun e => (notPinch e).elim,
      fun e => (notSeal e).elim⟩

theorem ParamSet.Ordered.store {ps : ParamSet} (h : ps.Ordered) {p : ChanParam} {v : Nat} (admits : ps.Admits p v) :
    (ps.store p v).Ordered := by
  obtain ⟨⟨l64, l4095⟩, ⟨k1, k8⟩, ⟨m1, m8⟩, seal255, pinch4095⟩ := h.bounds
  obtain ⟨ranges, count, zones, pinch⟩ := h
  obtain ⟨inRange, asCount, asPinch, asSeal⟩ := admits
  unfold ParamSet.store
  split
  · have atLeast : 1 ≤ v := inRange.1
    refine ⟨(ParamSet.InRange.set ranges inRange).set ⟨by omega, by omega⟩, ?_, ?_, ?_⟩ <;> simp [ParamSet.get_set, *]
  · have atMost := asSeal rfl
    refine ⟨(ParamSet.InRange.set ranges inRange).set ⟨Nat.zero_le _, by omega⟩, ?_, ?_, ?_⟩ <;>
      simp [ParamSet.get_set, *]
  · obtain ⟨low, high⟩ : 64 ≤ v ∧ v ≤ 4095 := inRange
    refine ⟨((ParamSet.InRange.set (p := .travelLength) ranges ⟨low, high⟩).set (p := .zSeal) ⟨Nat.zero_le _, ?_⟩).set (p := .zPinch)
      ⟨Nat.zero_le _, ?_⟩, ?_, ?_, ?_⟩ <;>
      simp [ParamSet.lowerZones, ParamSet.get_set] <;> omega
  · rename_i notDepth notSeal notLength
    refine ⟨ParamSet.InRange.set ranges inRange, ?_, ?_, ?_⟩
    · rw [ParamSet.get_set, ParamSet.get_set, if_neg (Ne.symm notDepth)]
      split
      · rename_i here
        exact asCount here.symm
      · exact count
    · rw [ParamSet.get_set, ParamSet.get_set, if_neg (Ne.symm notSeal)]
      split
      · rename_i here
        exact (asPinch here.symm).1
      · exact zones
    · rw [ParamSet.get_set, ParamSet.get_set, if_neg (Ne.symm notLength)]
      split
      · rename_i here
        exact (asPinch here.symm).2
      · exact pinch

theorem ParamSet.defaults_ordered : ParamSet.defaults.Ordered := by
  refine ⟨fun p => ?_, ?_, ?_, ?_⟩
  · rw [ParamSet.defaults_get]
    cases p <;> simp [ChanParam.row, Range.holds]
  all_goals
    simp only [ParamSet.defaults_get]
    decide

theorem ParamSet.Ordered.restoreDefaults {ps : ParamSet} (h : ps.Ordered) : ps.restoreDefaults.Ordered := by
  obtain ⟨⟨l64, l4095⟩, -⟩ := h.bounds
  have ranges := ((((ParamSet.InRange.set ParamSet.defaults_ordered.1 (h.1 .enable)).set (h.1 .endMode)).set
    (h.1 .travelLength)).set (p := .zPinch) (v := min ChanParam.zPinch.row.default (ps.get .travelLength))
    ⟨Nat.zero_le _, (min_le_left _ _).trans (by decide)⟩)
  refine ⟨ranges, ?_, ?_, ?_⟩ <;>
    simp [ParamSet.restoreDefaults, ParamSet.get_set, ParamSet.defaults_get, ChanParam.row]
  omega

/-! ## Both sets of a channel (R2, R7) -/

/-- The parameters that both sets have in common (R2). -/
def ChanParam.shared (p : ChanParam) : Prop := p = .enable ∨ p = .endMode ∨ p = .travelLength

theorem ParamSet.store_shared {ps : ParamSet} {p q : ChanParam} {v : Nat} (shared : q.shared) (other : q ≠ p) :
    (ps.store p v).get q = ps.get q := by
  unfold ParamSet.store
  split <;> rcases shared with rfl | rfl | rfl <;> simp [ParamSet.lowerZones, ParamSet.get_set, other] at *

theorem ParamSet.store_self {ps : ParamSet} {p : ChanParam} {v : Nat} (shared : p.shared) : (ps.store p v).get p = v := by
  rcases shared with rfl | rfl | rfl <;> simp [ParamSet.store, ParamSet.lowerZones, ParamSet.get_set]

theorem Sequencer.setsAgree_iff {m : Sequencer} :
    m.SetsAgree ↔ ∀ p : ChanParam, p.shared → m.active.get p = m.pending.get p := by
  constructor
  · rintro ⟨length, mode, enable⟩ p (rfl | rfl | rfl)
    · exact enable
    · exact mode
    · exact length
  · exact fun h => ⟨h _ (.inr (.inr rfl)), h _ (.inr (.inl rfl)), h _ (.inl rfl)⟩

theorem Sequencer.SetsAgree.storeBoth {m : Sequencer} {p : ChanParam} {v : Nat} (h : m.SetsAgree) (shared : p.shared) :
    (m.storeBoth p v).SetsAgree := by
  rw [Sequencer.setsAgree_iff] at h ⊢
  intro q hq
  by_cases here : q = p
  · rw [here]
    exact (ParamSet.store_self shared).trans (ParamSet.store_self shared).symm
  · exact ((ParamSet.store_shared hq here).trans (h q hq)).trans (ParamSet.store_shared hq here).symm

theorem Sequencer.SetsAgree.store {m u : Sequencer} {p : ChanParam} {v : Nat} (h : m.SetsAgree)
    (plain : p ≠ .enable ∧ p ≠ .endMode ∧ p ≠ .travelLength) (pending : u.pending = m.pending.store p v)
    (active : u.active = m.active) : u.SetsAgree := by
  obtain ⟨notEnable, notMode, notLength⟩ := plain
  rw [Sequencer.setsAgree_iff] at h ⊢
  intro q hq
  have other : q ≠ p := by rintro rfl; rcases hq with rfl | rfl | rfl <;> contradiction
  rw [pending, active, ParamSet.store_shared hq other]
  exact h q hq

theorem Sequencer.SetsAgree.restoreDefaults {m u : Sequencer} (h : m.SetsAgree)
    (pending : u.pending = m.pending.restoreDefaults) (active : u.active = m.active) : u.SetsAgree := by
  rw [Sequencer.setsAgree_iff] at h ⊢
  intro q hq
  rw [pending, active, h q hq]
  rcases hq with rfl | rfl | rfl <;> simp [ParamSet.restoreDefaults, ParamSet.get_set]

theorem Sequencer.SetsAgree.of_copied {m : Sequencer} (h : m.active = m.pending) : m.SetsAgree := by
  unfold Sequencer.SetsAgree
  rw [h]
  exact ⟨rfl, rfl, rfl⟩

/-- The sets of a channel after an update: as before, or written as R2, R3, R5 and R161 say. -/
theorem Chan.Quiet.sets {k u : Chan} (step : k.Quiet u) :
    (u.ms.pending = k.ms.pending ∧ u.ms.active = k.ms.active) ∨
    (u.ms.pending = k.ms.pending ∧ u.ms.active = k.ms.pending) ∨
    (u.ms.pending = k.ms.pending.restoreDefaults ∧ u.ms.active = k.ms.active) ∨
    (∃ p v, (p ≠ .enable ∧ p ≠ .endMode ∧ p ≠ .travelLength) ∧ k.Takes p v ∧
      u.ms.pending = k.ms.pending.store p v ∧ u.ms.active = k.ms.active) ∨
    (∃ p v, p.shared ∧ (k.Takes p v ∨ p = .enable ∧ v = 0) ∧ u.ms.pending = k.ms.pending.store p v ∧
      u.ms.active = k.ms.active.store p v ∧ (p = .travelLength → k.ms.state = .disabled)) := by
  cases step with
  | count ph => exact .inl (by rw [Chan.decodeCount_ms]; exact ⟨rfl, rfl⟩)
  | blanking => exact .inl ⟨by unfold Chan.countBlanking; dsimp only; split <;> rfl, k.countBlanking_active⟩
  | illegal => exact .inl (by rw [Chan.illegal_ms]; exact ⟨rfl, rfl⟩)
  | rampStep => exact .inl (by unfold Chan.rampStep; split <;> exact ⟨rfl, rfl⟩)
  | pwmBoundary su => exact .inl (by unfold Chan.pwmBoundary; split <;> exact ⟨rfl, rfl⟩)
  | note overflowed raised => exact .inl (by rw [Chan.noteConditions_eq]; exact ⟨rfl, rfl⟩)
  | measure cell pn => exact .inl (by rw [Chan.addMeasurement_ms]; exact ⟨rfl, rfl⟩)
  | adapt unknown drift filling => exact .inl (by rw [(k.adapt_fields _ _ _).2.1]; exact ⟨rfl, rfl⟩)
  | startup su m => exact .inr (.inl ⟨rfl, rfl⟩)
  | restoreDefaults => exact .inr (.inr (.inl ⟨rfl, rfl⟩))
  | store p v plain taken => exact .inr (.inr (.inr (.inl ⟨p, v, plain, taken, rfl, rfl⟩)))
  | geometry p v isGeometry taken disabled =>
    exact .inr (.inr (.inr (.inr ⟨p, v, .inr isGeometry, .inl taken, rfl, rfl, fun _ => disabled⟩)))
  | disable => exact .inr (.inr (.inr (.inr ⟨.enable, 0, .inl rfl, .inr ⟨rfl, rfl⟩, rfl, rfl, by simp⟩)))
  | loadCells g images => exact .inl ⟨rfl, rfl⟩
  | _ => exact .inl ⟨rfl, rfl⟩

theorem Chan.Takes.admits {k : Chan} {p : ChanParam} {v : Nat} (taken : k.Takes p v) (h : k.ms.pending.Ordered) :
    k.ms.pending.Admits p v := by
  obtain ⟨value, admitted, rfl⟩ := taken
  exact h.admits_taken admitted

/-- What one set admits for a parameter both share, the other admits too. -/
theorem ParamSet.Admits.of_shared {ps qs : ParamSet} {p : ChanParam} {v : Nat} (h : ps.Admits p v) (shared : p.shared) :
    qs.Admits p v := by
  refine ⟨h.1, ?_⟩
  rcases shared with rfl | rfl | rfl <;> simp

theorem ParamSet.admits_disabled (ps : ParamSet) : ps.Admits .enable 0 := by
  refine ⟨?_, by simp⟩
  simp [ChanParam.row, Range.holds]

theorem Chan.Quiet.setsAgree {k u : Chan} (step : k.Quiet u) (h : k.ms.SetsAgree) : u.ms.SetsAgree := by
  rcases step.sets with ⟨pending, active⟩ | ⟨pending, active⟩ | ⟨pending, active⟩ |
    ⟨p, v, plain, -, pending, active⟩ | ⟨p, v, shared, -, pending, active, -⟩
  · unfold Sequencer.SetsAgree
    rw [pending, active]
    exact h
  · exact .of_copied (active.trans pending.symm)
  · exact h.restoreDefaults pending active
  · exact h.store plain pending active
  · have stored := h.storeBoth (v := v) shared
    unfold Sequencer.SetsAgree at stored ⊢
    rw [pending, active]
    exact stored

theorem Chan.Quiet.paramLaw {k u : Chan} (step : k.Quiet u) (h : k.ParamLaw) : u.ParamLaw := by
  obtain ⟨hp, ha, agree⟩ := h
  refine ⟨?_, ?_, step.setsAgree agree⟩ <;>
  rcases step.sets with ⟨pending, active⟩ | ⟨pending, active⟩ | ⟨pending, active⟩ |
    ⟨p, v, plain, taken, pending, active⟩ | ⟨p, v, shared, taken, pending, active, -⟩
  · exact pending ▸ hp
  · exact pending ▸ hp
  · exact pending ▸ hp.restoreDefaults
  · exact pending ▸ hp.store (taken.admits hp)
  · rcases taken with taken | ⟨rfl, rfl⟩
    · exact pending ▸ hp.store (taken.admits hp)
    · exact pending ▸ hp.store (ParamSet.admits_disabled _)
  · exact active ▸ ha
  · exact active ▸ hp
  · exact active ▸ ha
  · exact active ▸ ha
  · rcases taken with taken | ⟨rfl, rfl⟩
    · exact active ▸ ha.store ((taken.admits hp).of_shared shared)
    · exact active ▸ ha.store (ParamSet.admits_disabled _)

theorem ParamSet.Ordered.enabled {ps : ParamSet} (h : ps.Ordered) : (ps.set .enable 1).Ordered :=
  h.store (p := .enable) (v := 1) ⟨by simp [ChanParam.row, Range.holds], by simp⟩

theorem Chan.Step.paramLaw {k u : Chan} (step : k.Step u) (h : k.ParamLaw) : u.ParamLaw := by
  have law := h
  obtain ⟨pending, active, agree⟩ := law
  cases step with
  | quiet quiet => exact quiet.paramLaw h
  | start su m => exact ⟨pending, pending, .of_copied rfl⟩
  | enable => exact ⟨pending.enabled, pending.enabled, .of_copied rfl⟩
  | powerOn => exact ⟨ParamSet.defaults_ordered, ParamSet.defaults_ordered, .of_copied rfl⟩
  | _ => exact h

/-- Settles O14: each update of a channel keeps both sets ordered. -/
theorem parameterSetsStayOrdered : Obligations.ParameterSetsStayOrdered :=
  fun _ _ law e => step_keeps_chan Chan.Step.paramLaw e law

/-! ## Positions (R14, R23, R24) -/

theorem Chan.PositionLaw.count {k : Chan} (ph : HallPhase) (h : k.PositionLaw) : (k.decodeCount ph).PositionLaw := by
  obtain ⟨agree, disabled, known⟩ := h
  obtain ⟨inside, outside, unknown⟩ := k.positionFollows_decodeCount ph
  have stillKnown := k.known_decodeCount ph
  unfold Chan.PositionLaw
  rw [Chan.decodeCount_ms]
  refine ⟨agree, fun out => ?_, fun isKnown => ?_⟩
  · exact (unknown (disabled out)).2
  · obtain ⟨wasKnown, bounds⟩ := stillKnown.1 isKnown
    rw [(inside wasKnown bounds).1]
    exact bounds

/-- An update that keeps the sets, the state and the position, or makes the position UNKNOWN. -/
theorem Chan.PositionLaw.of_pd {k u : Chan} (h : k.PositionLaw) (agree : u.ms.SetsAgree)
    (length : u.ms.active.get .travelLength = k.ms.active.get .travelLength)
    (inService : u.ms.state = .disabled → k.ms.state = .disabled ∨ u.pd.known = false)
    (known : u.pd.known = true → k.pd.known = true) (position : u.pd.position = k.pd.position) : u.PositionLaw := by
  obtain ⟨-, disabled, bounds⟩ := h
  refine ⟨agree, fun out => ?_, fun isKnown => ?_⟩
  · rcases inService out with wasOut | unknown
    · have wasUnknown := disabled wasOut
      exact Bool.eq_false_iff.2 fun isKnown => by rw [known isKnown] at wasUnknown; cases wasUnknown
    · exact unknown
  · rw [position, length]
    exact bounds (known isKnown)

/-- The position set to a place between the closed end and L. -/
theorem Chan.positionLaw_of_placed {k u : Chan} (ms : u.ms.SetsAgree)
    (inService : u.ms.state ≠ .disabled) (length : u.ms.active = k.ms.active)
    (place : 0 ≤ u.pd.position ∧ u.pd.position ≤ k.ms.active.get .travelLength) : u.PositionLaw := by
  refine ⟨ms, fun out => (inService out).elim, fun _ => ?_⟩
  rw [length]
  omega

theorem Chan.state_countBlanking (k : Chan) : k.countBlanking.ms.state = .disabled → k.ms.state = .disabled := by
  unfold Chan.countBlanking
  dsimp only
  split
  · exact fun h => by cases h
  · exact id

theorem Chan.pd_countBlanking (k : Chan) : k.countBlanking.pd = k.pd := by
  unfold Chan.countBlanking
  dsimp only
  split <;> rfl

theorem Chan.pd_tick (k : Chan) : k.tick.pd.position = k.pd.position ∧ k.tick.pd.known = k.pd.known := by
  unfold Chan.tick Decoder.sampleTick
  dsimp only
  split <;>
  · unfold Decoder.timerTick
    dsimp only
    repeat' split
    all_goals exact ⟨rfl, rfl⟩

theorem Chan.out_fields_rampStep (k : Chan) : k.rampStep = { k with out := k.rampStep.out } := by
  unfold Chan.rampStep
  split <;> rfl

theorem Chan.out_fields_pwmBoundary (k : Chan) (su : Supply) :
    k.pwmBoundary su = { k with out := (k.pwmBoundary su).out } := by
  unfold Chan.pwmBoundary
  split <;> rfl

theorem Chan.Quiet.positionLaw {k u : Chan} (step : k.Quiet u) (h : k.PositionLaw) : u.PositionLaw := by
  have agree := step.setsAgree h.1
  have law := h
  obtain ⟨agreed, disabled, bounds⟩ := law
  cases step with
  | count ph => exact h.count ph
  | blanking =>
    exact h.of_pd agree (by rw [Chan.countBlanking_active]) (fun out => .inl (k.state_countBlanking out))
      (by rw [Chan.pd_countBlanking]; exact id) (by rw [Chan.pd_countBlanking])
  | illegal =>
    obtain ⟨-, -, -, -, -, -, -, position, known, -⟩ := k.illegal_pd
    exact h.of_pd agree (by rw [Chan.illegal_ms]) (by rw [Chan.illegal_ms]; exact .inl) (by rw [known]; exact id) position
  | losePosition => exact h.of_pd agree rfl .inl (by intro known; cases known) rfl
  | setZero inService => exact Chan.positionLaw_of_placed agree inService rfl ⟨le_rfl, Int.natCast_nonneg _⟩
  | restore p t r inService hp => exact Chan.positionLaw_of_placed agree inService rfl ⟨Int.natCast_nonneg _, Int.ofNat_le.2 hp⟩
  | rampStep =>
    rw [Chan.out_fields_rampStep]
    exact h
  | pwmBoundary su =>
    rw [Chan.out_fields_pwmBoundary]
    exact h
  | tick => exact h.of_pd agree rfl .inl (by rw [k.pd_tick.2]; exact id) k.pd_tick.1
  | note overflowed raised =>
    rw [Chan.noteConditions_eq]
    exact h
  | measure cell pn => cases pn <;> exact h
  | adapt unknown drift filling =>
    obtain ⟨pd, ms, -, -⟩ := k.adapt_fields unknown drift filling
    exact h.of_pd agree (by rw [ms]) (by rw [ms]; exact .inl) (by rw [pd]; exact id) (by rw [pd])
  | dwell | backoff => exact h.of_pd agree rfl (by intro out; cases out) id rfl
  | startup su m => exact h.of_pd agree agreed.1.symm (by intro out; cases out) id rfl
  | geometry p v isGeometry taken out =>
    have unknown : k.pd.known = false := disabled out
    exact ⟨agree, fun _ => unknown, fun known => by
      rw [show (k.writeGeometry p v).pd = k.pd from rfl, unknown] at known
      cases known⟩
  | disable => exact ⟨agree, fun _ => rfl, fun known => by cases known⟩
  | store | restoreDefaults => exact h.of_pd agree rfl .inl id rfl
  | loadCells g images => exact ⟨agreed, disabled, bounds⟩
  | _ => exact h

theorem Chan.Step.positionLaw {k u : Chan} (step : k.Step u) (h : k.PositionLaw) : u.PositionLaw := by
  have law := h
  obtain ⟨agree, disabled, bounds⟩ := law
  cases step with
  | quiet quiet => exact quiet.positionLaw h
  | enterIdle | enterFault | queue => exact h.of_pd agree rfl (by intro out; cases out) id rfl
  | exchange m queued => exact h
  | start su m => exact h.of_pd (.of_copied rfl) agree.1.symm (by intro out; cases out) id rfl
  | enable =>
    refine h.of_pd (.of_copied rfl) ?_ (by intro out; cases out) id rfl
    rw [agree.1]
    exact (ParamSet.get_set _ _ _ _).trans (if_neg (by simp))
  | powerOn => exact ⟨.of_copied rfl, fun _ => rfl, fun known => by cases known⟩
  | preserve =>
    refine h.of_pd agree rfl (fun out => ?_) (fun known => ?_) rfl
    · by_cases wasOut : k.ms.state = .disabled
      · exact .inl wasOut
      · simp [Chan.preserve, wasOut] at out
    · exact (Bool.and_eq_true_iff.1 known).1

/-- Settles O12: each update of a channel keeps the position law, which the sets' agreement on L carries. -/
theorem knownPositionStaysInBounds : Obligations.KnownPositionStaysInBounds :=
  fun _ _ law e => step_keeps_chan Chan.Step.positionLaw e law

/-! ## Outputs (R41, R43, R49) -/

/-- Outputs at rest: no duty, no ramp, no PWM. -/
def DriveOut.Still (o : DriveOut) : Prop := o.applied = 0 ∧ o.step = none ∧ o.pwm = none

theorem DriveOut.still_leave (o : DriveOut) (m : OutputMode) : (o.leave m).Still := ⟨rfl, rfl, rfl⟩

theorem Chan.outputsFollow_iff {k : Chan} : k.OutputsFollow ↔
    ((k.ms.state = .startup ∨ k.ms.state = .travel) → k.ms.motion.map (fun m => m.dir.mode) = some k.out.mode) ∧
    (k.ms.state = .backoff → k.out.mode = .driveOpen) ∧
    (k.ms.state.driving = false → k.out.Still ∧ k.out.mode = if k.ms.state = .dwell then .brake else .off) := by
  unfold Chan.OutputsFollow DriveOut.Still
  cases k.ms.state <;> simp [ChState.driving] <;> tauto

/-- An update that leaves the state, the direction of a running motion, and the outputs as far as they stand still. -/
theorem Chan.OutputsFollow.of_out {k u : Chan} (h : k.OutputsFollow) (state : u.ms.state = k.ms.state)
    (motion : (k.ms.state = .startup ∨ k.ms.state = .travel) → u.ms.motion.map Motion.dir = k.ms.motion.map Motion.dir)
    (mode : u.out.mode = k.out.mode) (still : k.out.Still → u.out.Still) : u.OutputsFollow := by
  rw [Chan.outputsFollow_iff] at h ⊢
  obtain ⟨running, backoff, resting⟩ := h
  rw [state, mode]
  refine ⟨fun run => ?_, backoff, fun rest => ⟨still (resting rest).1, (resting rest).2⟩⟩
  have same := congrArg (Option.map Dir.mode) (motion run)
  simp only [Option.map_map] at same
  exact same.trans (running run)

theorem Chan.OutputsFollow.of_same {k u : Chan} (h : k.OutputsFollow) (state : u.ms.state = k.ms.state)
    (motion : u.ms.motion = k.ms.motion) (out : u.out = k.out) : u.OutputsFollow :=
  h.of_out state (fun _ => by rw [motion]) (by rw [out]) (by rw [out]; exact id)

theorem Chan.outputsFollow_of_rest {k : Chan} (state : k.ms.state.driving = false) (still : k.out.Still)
    (mode : k.out.mode = if k.ms.state = .dwell then .brake else .off) : k.OutputsFollow := by
  refine Chan.outputsFollow_iff.2 ⟨fun run => ?_, fun run => ?_, fun _ => ⟨still, mode⟩⟩
  · rcases run with run | run <;> rw [run] at state <;> cases state
  · rw [run] at state
    cases state

theorem Chan.outputsFollow_of_startup {k : Chan} {m : Motion} (state : k.ms.state = .startup)
    (motion : k.ms.motion = some m) (mode : k.out.mode = m.dir.mode) : k.OutputsFollow := by
  simp [Chan.OutputsFollow, state, motion, mode]

theorem Chan.still_rampStep (k : Chan) : k.rampStep.out.mode = k.out.mode ∧ (k.out.Still → k.rampStep.out.Still) := by
  unfold Chan.rampStep
  cases step : k.out.step with
  | none => exact ⟨rfl, id⟩
  | some i => exact ⟨rfl, fun still => by rw [still.2.1] at step; cases step⟩

theorem Chan.still_pwmBoundary (k : Chan) (su : Supply) :
    (k.pwmBoundary su).out.mode = k.out.mode ∧ (k.out.Still → (k.pwmBoundary su).out.Still) := by
  unfold Chan.pwmBoundary
  split
  · rename_i running
    exact ⟨rfl, fun still => by rw [still.2.2] at running; cases running⟩
  · exact ⟨rfl, id⟩

theorem Chan.still_tick (k : Chan) : k.out.Still → k.tick.out.Still := by
  rintro ⟨applied, step, pwm⟩
  exact ⟨applied, step, by simp [Chan.tick, DriveOut.tick, pwm]⟩

theorem Chan.OutputsFollow.blanking {k : Chan} (h : k.OutputsFollow) : k.countBlanking.OutputsFollow := by
  unfold Chan.countBlanking
  dsimp only
  split
  · rename_i enters
    have running : k.ms.motion.map (fun m => m.dir.mode) = some k.out.mode :=
      (Chan.outputsFollow_iff.1 h).1 (.inl enters.1)
    exact running
  · exact h

theorem Chan.OutputsFollow.setMotion {k : Chan} {m : Motion} (fits : k.MotionFits m) (h : k.OutputsFollow) :
    (k.setMotion m).OutputsFollow := by
  refine h.of_out rfl (fun running => ?_) rfl id
  rcases running with running | running <;>
  · simp only [Chan.MotionFits, running] at fits
    exact fits.symm

theorem Chan.Quiet.outputsFollow {k u : Chan} (step : k.Quiet u) (h : k.OutputsFollow) : u.OutputsFollow := by
  cases step with
  | count ph =>
    exact h.of_same (by rw [Chan.decodeCount_ms]) (by rw [Chan.decodeCount_ms]) (by rw [Chan.decodeCount_out])
  | blanking => exact h.blanking
  | illegal => exact h.of_same (by rw [Chan.illegal_ms]) (by rw [Chan.illegal_ms]) (by rw [Chan.illegal_out])
  | rampStep =>
    exact h.of_out (by rw [Chan.out_fields_rampStep]) (fun _ => by rw [Chan.out_fields_rampStep]) k.still_rampStep.1
      k.still_rampStep.2
  | pwmBoundary su =>
    exact h.of_out (by rw [Chan.out_fields_pwmBoundary]) (fun _ => by rw [Chan.out_fields_pwmBoundary])
      (k.still_pwmBoundary su).1 (k.still_pwmBoundary su).2
  | tick => exact h.of_out rfl (fun _ => rfl) rfl k.still_tick
  | note overflowed raised =>
    rw [Chan.noteConditions_eq]
    exact h.of_same rfl rfl rfl
  | measure cell pn => exact h.of_same (by rw [Chan.addMeasurement_ms]) (by rw [Chan.addMeasurement_ms]) (by cases pn <;> rfl)
  | adapt unknown drift filling =>
    obtain ⟨-, ms, -, out⟩ := k.adapt_fields unknown drift filling
    exact h.of_same (by rw [ms]) (by rw [ms]) out
  | setMotion m fits => exact h.setMotion fits
  | dwell succ => exact Chan.outputsFollow_of_rest rfl (k.out.still_leave _) rfl
  | redirect r dwelling =>
    refine h.of_out rfl (fun running => ?_) rfl id
    rw [dwelling] at running
    rcases running with running | running <;> cases running
  | startup su m => exact Chan.outputsFollow_of_startup rfl rfl rfl
  | backoff su target => exact (show OutputMode.driveOpen = .driveOpen from rfl)
  | disable => exact Chan.outputsFollow_of_rest rfl (k.out.still_leave _) rfl
  | _ => exact h.of_same rfl rfl rfl

theorem Chan.Step.outputsFollow {k u : Chan} (step : k.Step u) (h : k.OutputsFollow) : u.OutputsFollow := by
  cases step with
  | quiet quiet => exact quiet.outputsFollow h
  | enterIdle | enterFault | enable => exact Chan.outputsFollow_of_rest rfl (k.out.still_leave _) rfl
  | queue idle =>
    obtain ⟨still, mode⟩ := (Chan.outputsFollow_iff.1 h).2.2 (by rw [idle]; rfl)
    rw [idle] at mode
    exact Chan.outputsFollow_of_rest rfl still mode
  | exchange m queued =>
    refine h.of_out rfl (fun running => ?_) rfl id
    rw [queued] at running
    rcases running with running | running <;> cases running
  | start su m => exact Chan.outputsFollow_of_startup rfl rfl rfl
  | powerOn => exact Chan.outputsFollow_of_rest rfl ⟨rfl, rfl, rfl⟩ rfl
  | preserve =>
    rcases k.preserve_atRest with state | state
    all_goals exact Chan.outputsFollow_of_rest (by rw [state]; rfl) ⟨rfl, rfl, rfl⟩ (by rw [state]; rfl)

theorem step_outputsLaw {s t : State} (h : s.OutputsLaw) (e : step s = .next t) : t.OutputsLaw :=
  step_keeps_chan Chan.Step.outputsFollow e h

end Sys2Proof.Machine
end

section
/-! PROOFS. The laws of the pool, of the link and of the supply history. -/

namespace Sys2Proof.Machine

open Relation

/-! ## What an assertion leaves alone -/

theorem State.assertOn_fold_frame (l : LineId) (cs : List ChanId) (s : State) :
    (cs.foldl (fun s c => s.assertOn l c) s).supply = s.supply ∧
      (cs.foldl (fun s c => s.assertOn l c) s).device = s.device ∧
      (cs.foldl (fun s c => s.assertOn l c) s).lines = s.lines := by
  induction cs generalizing s with
  | nil => exact ⟨rfl, rfl, rfl⟩
  | cons c cs ih =>
    obtain ⟨supply, device, lines⟩ := ih (s.assertOn l c)
    exact ⟨supply.trans (s.assertOn_supply l c), device.trans (s.assertOn_device l c), lines.trans (s.assertOn_lines l c)⟩

theorem State.assertOnAll_frame (s : State) (l : LineId) (cs : List ChanId) :
    (s.assertOnAll l cs).supply = s.supply ∧ (s.assertOnAll l cs).device = s.device ∧
      (s.assertOnAll l cs).lines = s.lines := by
  have told := State.assertOn_fold_frame l (s.openOrder (cs.filter s.assertable)) s.countRace
  unfold State.assertOnAll
  dsimp only
  split
  · simpa using told
  · simpa using told

theorem State.assertLine_supply (s : State) (l : LineId) : (s.assertLine l).supply = s.supply :=
  (State.assertOnAll_frame _ l _).1

theorem State.assertLine_device (s : State) (l : LineId) : (s.assertLine l).device = s.device :=
  (State.assertOnAll_frame _ l _).2.1

theorem State.assertLine_lines (s : State) (l : LineId) :
    (s.assertLine l).lines = s.lines.set l { s.lines[l] with asserted := true, latch := true } :=
  (State.assertOnAll_frame _ l _).2.2

theorem State.writeMap_supply (s : State) (l : LineId) (v : Nat) : (s.writeMap l v).supply = s.supply := by
  unfold State.writeMap
  dsimp only
  rw [State.judgeLatch_supply]
  split
  · exact (State.assertOnAll_frame _ _ _).1
  · rfl

theorem State.writeMap_device (s : State) (l : LineId) (v : Nat) :
    (s.writeMap l v).device = s.device.put (.lineMap l) v := by
  unfold State.writeMap
  dsimp only
  rw [State.judgeLatch_device]
  split
  · exact (State.assertOnAll_frame _ _ _).2.1
  · rfl

theorem State.firstLineSamples_supply (s : State) : s.firstLineSamples.supply = s.supply :=
  List.foldlRecOn (motive := fun u : State => u.supply = s.supply) _ State.assertLine rfl
    (fun u hu l _ => (u.assertLine_supply l).trans hu)

/-! ## The pool (R174 to R176, R180) -/

theorem Pool.Partitioned.lose {p : Pool} (h : p.Partitioned) :
    Pool.Partitioned { p with lost := min 255 (p.lost + 1) } := ⟨h.1, min_le_left _ _⟩

/-- A record lent goes from the head of the free list to the end of the pending list. -/
theorem Pool.Partitioned.lend {p : Pool} {r : RecId} {rest : List RecId} (h : p.Partitioned) (free : p.free = r :: rest)
    (records : Vector Incident 16) :
    Pool.Partitioned { p with records := records, free := rest, waiting := p.waiting ++ [r] } := by
  obtain ⟨perm, lost⟩ := h
  rw [free] at perm
  refine ⟨List.Perm.trans ?_ perm, lost⟩
  rw [← List.append_assoc]
  exact (List.perm_append_singleton r (rest ++ p.waiting))

theorem Pool.Partitioned.release {p : Pool} {r : RecId} (h : p.Partitioned) (pending : r ∈ p.waiting) :
    (p.release r).Partitioned := by
  obtain ⟨perm, lost⟩ := h
  refine ⟨List.Perm.trans ?_ perm, lost⟩
  rw [Pool.release, List.append_assoc]
  exact (List.perm_cons_erase pending).symm.append_left _

theorem State.partitioned_takeRecord {s : State} (c : ChanId) (q : IncidentCause) (p : Int) (known : Bool)
    (h : s.pool.Partitioned) : (s.takeRecord c q p known).pool.Partitioned := by
  cases free : s.pool.free with
  | nil =>
    rw [State.takeRecord_nil _ _ _ _ _ free]
    exact h.lose
  | cons r rest =>
    rw [State.takeRecord_cons _ _ _ _ _ free]
    exact h.lend free _

theorem State.partitioned_foldl {α : Type} {f : State → α → State}
    (each : ∀ (s : State) (a : α), s.pool.Partitioned → (f s a).pool.Partitioned) (s : State) (xs : List α)
    (h : s.pool.Partitioned) : (xs.foldl f s).pool.Partitioned :=
  List.foldlRecOn xs f h (fun u hu a _ => each u a hu)

theorem State.partitioned_assertOn (s : State) (l : LineId) (c : ChanId) (h : s.pool.Partitioned) :
    (s.assertOn l c).pool.Partitioned := by
  have told : (((s.takeRecordHere c (.bridge l)).stopToFault c (.bridge l)).detach c).pool.Partitioned := by
    rw [State.detach_pool, State.stopToFault_pool]
    exact s.partitioned_takeRecord _ _ _ _ h
  unfold State.assertOn
  split
  · exact h
  · exact h
  all_goals exact told

theorem State.partitioned_assertOnAll {s : State} (l : LineId) (cs : List ChanId) (h : s.pool.Partitioned) :
    (s.assertOnAll l cs).pool.Partitioned := by
  have told := State.partitioned_foldl (fun u c => u.partitioned_assertOn l c) s.countRace
    (s.openOrder (cs.filter s.assertable)) h
  unfold State.assertOnAll
  dsimp only
  split
  · rw [State.grantPass_pool]
    exact told
  · exact told

theorem State.partitioned_assertLine (s : State) (l : LineId) (h : s.pool.Partitioned) :
    (s.assertLine l).pool.Partitioned :=
  State.partitioned_assertOnAll (s := { s with lines := s.lines.set l { s.lines[l] with asserted := true, latch := true } })
    l _ h

theorem State.partitioned_writeMap {s : State} (l : LineId) (v : Nat) (h : s.pool.Partitioned) :
    (s.writeMap l v).pool.Partitioned := by
  unfold State.writeMap
  dsimp only
  rw [State.judgeLatch_pool]
  split
  · exact State.partitioned_assertOnAll l _ h
  · exact h

theorem State.askSlot_pool (s : State) (c : ChanId) (m : Motion) : (s.askSlot c m).pool = s.pool := by
  unfold State.askSlot
  split <;> simp

theorem State.Act.partitioned {s t : State} (act : s.Act t) (h : s.pool.Partitioned) : t.pool.Partitioned := by
  cases act with
  | record c q p known => exact s.partitioned_takeRecord c q p known h
  | release r pending => exact h.release pending
  | supplyNormal su =>
    rw [State.grantPass_pool]
    exact h
  | endIdle c r =>
    rw [State.endIdle_pool]
    exact h
  | enterFault c q =>
    rw [State.enterFault_pool]
    exact h
  | askSlot c m =>
    rw [State.askSlot_pool]
    exact h
  | assertLine l => exact s.partitioned_assertLine l h
  | writeMap l v => exact State.partitioned_writeMap l v h
  | _ => exact h

theorem State.Op.partitioned {s t : State} (op : s.Op t) (h : s.pool.Partitioned) : t.pool.Partitioned := by
  cases op with
  | act act => exact act.partitioned h
  | reset b base =>
    refine State.partitioned_foldl State.partitioned_assertLine _ _ ?_
    exact ⟨by rw [State.countRace_pool, base.free, base.waiting]; exact List.Perm.of_eq (List.append_nil _),
      by rw [State.countRace_pool, base.lost]; exact Nat.zero_le _⟩
  | _ => exact h

/-- Settles O9: records move only from the free list's head to the pending list, and back when released. -/
theorem incidentRecordsArePartitioned : Obligations.IncidentRecordsArePartitioned :=
  fun _ _ law e => step_keeps (P := fun s => s.pool.Partitioned) State.Op.partitioned e law

/-! ## The link (R185, R186) -/

theorem State.Untouched.linkLawful {s t : State} (same : s.Untouched t) (h : s.link.Lawful) : t.link.Lawful := by
  unfold Link.Lawful
  rw [same.replies, same.lengthErrors, same.crcErrors, same.timeouts, same.overruns]
  exact h

theorem State.untouched_firstLineSamples (s : State) : s.Untouched s.firstLineSamples := by
  unfold State.firstLineSamples
  refine State.Untouched.trans ?_ (.foldl State.untouched_assertLine _ _)
  constructor <;> rfl

theorem Link.reset_lawful : Link.reset.Lawful := by
  unfold Link.Lawful
  decide

theorem State.Op.linkLawful {s t : State} (op : s.Op t) (h : s.link.Lawful) : t.link.Lawful := by
  cases op with
  | act act => exact act.untouched.linkLawful h
  | link l lawful => exact lawful h
  | reset b base => exact b.untouched_firstLineSamples.linkLawful (base.link ▸ Link.reset_lawful)
  | _ => exact h

/-- Settles O13: counters and windows by each update of a channel, the link by each update of the part. -/
theorem countersStayInRange : Obligations.CountersStayInRange := by
  refine ⟨fun s t law e => step_keeps_chan Chan.Step.counterLaw e law, fun s t law e c => ?_, fun s t law e =>
    step_keeps (P := fun s => s.link.Lawful) State.Op.linkLawful e law⟩
  have windows := step_keeps_chan Chan.Step.windowLaw e law c
  exact ⟨windows, fun a => windows.average⟩

/-! ## The supply history (R59, R68) -/

theorem State.askSlot_supply (s : State) (c : ChanId) (m : Motion) : (s.askSlot c m).supply = s.supply := by
  unfold State.askSlot
  split <;> simp

theorem State.Act.sampled {s t : State} (act : s.Act t) (h : s.supply.hist ≠ []) : t.supply.hist ≠ [] := by
  cases act with
  | record c q p known =>
    rw [State.takeRecord_supply]
    exact h
  | supply su sampled => exact sampled h
  | supplyNormal su sampled =>
    rw [State.grantPass_supply]
    exact sampled
  | endIdle c r =>
    rw [State.endIdle_supply]
    exact h
  | enterFault c q =>
    rw [State.enterFault_supply]
    exact h
  | askSlot c m =>
    rw [State.askSlot_supply]
    exact h
  | assertLine l =>
    rw [State.assertLine_supply]
    exact h
  | writeMap l v =>
    rw [State.writeMap_supply]
    exact h
  | _ => exact h

theorem State.Op.sampled {s t : State} (op : s.Op t) (h : s.supply.hist ≠ []) : t.supply.hist ≠ [] := by
  cases op with
  | act act => exact act.sampled h
  | reset b base =>
    rw [State.firstLineSamples_supply, base.supply]
    exact Supply.sample_hist_ne_nil _ _
  | _ => exact h

end Sys2Proof.Machine
end

section
/-! PROOFS. Slots and queue against the channel states, and the fault lines against the channels they map. -/

namespace Sys2Proof.Machine

open Relation

/-! ## The standing of a channel -/

/-- Two channels ask the same of the arbiter: a slot, a queue entry, and the class of that entry. -/
structure Chan.SameStanding (k u : Chan) : Prop where
  holding : u.ms.state.holding = k.ms.state.holding
  queued : u.ms.state = .queued ↔ k.ms.state = .queued
  cls : k.ms.state = .queued → u.ms.motion.map Motion.held = k.ms.motion.map Motion.held

/-- Out of service: DISABLED or in FAULT (R52). -/
def Chan.OutOfService (k : Chan) : Prop := k.ms.state = .disabled ∨ k.ms.state = .fault

theorem Chan.SameStanding.of_ms {k u : Chan} (state : u.ms.state = k.ms.state) (motion : u.ms.motion = k.ms.motion) :
    k.SameStanding u := ⟨by rw [state], by rw [state], fun _ => by rw [motion]⟩

theorem Chan.SameStanding.refl (k : Chan) : k.SameStanding k := .of_ms rfl rfl

theorem Chan.SameStanding.trans {k u v : Chan} (h : k.SameStanding u) (g : u.SameStanding v) : k.SameStanding v :=
  ⟨g.holding.trans h.holding, g.queued.trans h.queued, fun queued => (g.cls (h.queued.2 queued)).trans (h.cls queued)⟩

theorem ChState.not_queued_of_holding {st : ChState} (h : st.holding = true) : st ≠ .queued := by
  rintro rfl
  cases h

theorem ChState.holding_of_driving {st : ChState} (h : st.driving = true) : st.holding = true := by
  rcases ChState.driving_iff.1 h with rfl | rfl | rfl <;> rfl

/-- Between two states with a slot the standing is the same. -/
theorem Chan.SameStanding.of_holding {k u : Chan} (before : k.ms.state.holding = true) (after : u.ms.state.holding = true) :
    k.SameStanding u := by
  have wasNot := ChState.not_queued_of_holding before
  have isNot := ChState.not_queued_of_holding after
  exact ⟨after.trans before.symm, ⟨fun q => (isNot q).elim, fun q => (wasNot q).elim⟩, fun q => (wasNot q).elim⟩

/-- Between two states without slot and queue entry the standing is the same. -/
theorem Chan.SameStanding.of_apart {k u : Chan} (before : k.ms.state.holding = false) (wasNot : k.ms.state ≠ .queued)
    (after : u.ms.state.holding = false) (isNot : u.ms.state ≠ .queued) : k.SameStanding u :=
  ⟨after.trans before.symm, ⟨fun q => (isNot q).elim, fun q => (wasNot q).elim⟩, fun q => (wasNot q).elim⟩

theorem Chan.sameStanding_blanking (k : Chan) : k.SameStanding k.countBlanking := by
  unfold Chan.countBlanking
  dsimp only
  split
  · rename_i enters
    exact .of_holding (by rw [show k.ms.state = .startup from enters.1]; rfl) rfl
  · exact .of_ms rfl rfl

theorem Chan.sameStanding_setMotion {k : Chan} {m : Motion} (fits : k.MotionFits m) : k.SameStanding (k.setMotion m) := by
  refine ⟨rfl, Iff.rfl, fun queued => ?_⟩
  simp only [Chan.MotionFits, queued] at fits
  exact fits.symm

theorem Chan.Quiet.sameStanding {k u : Chan} (step : k.Quiet u) : k.SameStanding u := by
  cases step with
  | count ph => exact .of_ms (by rw [Chan.decodeCount_ms]) (by rw [Chan.decodeCount_ms])
  | blanking => exact k.sameStanding_blanking
  | illegal => exact .of_ms (by rw [Chan.illegal_ms]) (by rw [Chan.illegal_ms])
  | rampStep => exact .of_ms (by rw [Chan.out_fields_rampStep]) (by rw [Chan.out_fields_rampStep])
  | pwmBoundary su => exact .of_ms (by rw [Chan.out_fields_pwmBoundary]) (by rw [Chan.out_fields_pwmBoundary])
  | note overflowed raised => exact .of_ms (by rw [Chan.noteConditions_eq]) (by rw [Chan.noteConditions_eq])
  | measure cell pn => exact .of_ms (by rw [Chan.addMeasurement_ms]) (by rw [Chan.addMeasurement_ms])
  | adapt unknown drift filling =>
    obtain ⟨-, ms, -, -⟩ := k.adapt_fields unknown drift filling
    exact .of_ms (by rw [ms]) (by rw [ms])
  | setMotion m fits => exact Chan.sameStanding_setMotion fits
  | dwell succ driving => exact .of_holding (ChState.holding_of_driving driving) rfl
  | redirect r dwelling => exact .of_holding (ChState.holding_of_dwell dwelling) (ChState.holding_of_dwell dwelling)
  | startup su m dwelling => exact .of_holding (ChState.holding_of_dwell dwelling) rfl
  | backoff su target dwelling => exact .of_holding (ChState.holding_of_dwell dwelling) rfl
  | disable resting =>
    rcases resting with resting | resting
    all_goals exact .of_apart (by rw [resting]; rfl) (by rw [resting]; simp) rfl (by simp [Chan.disable, Chan.losePosition, Chan.rest])
  | _ => exact .of_ms rfl rfl

theorem Chan.Quietly.sameStanding {k u : Chan} (steps : k.Quietly u) : k.SameStanding u :=
  keeps_of_reflTransGen (r := Chan.Quiet) (P := fun v => k.SameStanding v) (fun step h => h.trans step.sameStanding) steps
    (.refl k)

theorem ChState.not_outOfService {st : ChState} (h : st.holding = true ∨ st = .queued ∨ st = .idle) :
    ¬(st = .disabled ∨ st = .fault) := by
  rcases h with h | rfl | rfl
  · rintro (rfl | rfl) <;> cases h
  · simp
  · simp

theorem Chan.Quiet.outOfService {k u : Chan} (step : k.Quiet u) (h : k.OutOfService) : u.OutOfService := by
  have notHolding : k.ms.state.holding ≠ true := fun holding => ChState.not_outOfService (.inl holding) h
  unfold Chan.OutOfService at h ⊢
  cases step with
  | count ph => rwa [Chan.decodeCount_ms]
  | blanking =>
    unfold Chan.countBlanking
    dsimp only
    split
    · rename_i enters
      exact (notHolding (by rw [show k.ms.state = .startup from enters.1]; rfl)).elim
    · exact h
  | illegal => rwa [Chan.illegal_ms]
  | rampStep => rwa [Chan.out_fields_rampStep]
  | pwmBoundary su => rwa [Chan.out_fields_pwmBoundary]
  | note overflowed raised => rwa [Chan.noteConditions_eq]
  | measure cell pn => rwa [Chan.addMeasurement_ms]
  | adapt unknown drift filling => rwa [(k.adapt_fields unknown drift filling).2.1]
  | dwell succ driving => exact (notHolding (ChState.holding_of_driving driving)).elim
  | startup su m dwelling => exact (notHolding (ChState.holding_of_dwell dwelling)).elim
  | backoff su target dwelling => exact (notHolding (ChState.holding_of_dwell dwelling)).elim
  | disable => exact .inl rfl
  | _ => exact h

theorem Chan.Quietly.outOfService {k u : Chan} (steps : k.Quietly u) (h : k.OutOfService) : u.OutOfService :=
  keeps_of_reflTransGen (r := Chan.Quiet) (P := Chan.OutOfService) Chan.Quiet.outOfService steps h

/-! ## Slots and queue against the states (R165, R166) -/

theorem State.ArbiterLaw.of_standing {s t : State} (h : s.ArbiterLaw) (arbiter : t.arbiter = s.arbiter)
    (same : ∀ c, (s.ch c).SameStanding (t.ch c)) : t.ArbiterLaw := by
  obtain ⟨holders, queue, once, classes, order⟩ := h
  unfold State.ArbiterLaw
  rw [arbiter]
  refine ⟨fun c => ?_, fun c => ?_, once, fun e he => ?_, order⟩
  · rw [(same c).holding]
    exact holders c
  · rw [(same c).queued]
    exact queue c
  · have queued : (s.ch e.chan).ms.state = .queued := (queue e.chan).1 (List.mem_map_of_mem he)
    rw [(same e.chan).cls queued]
    exact classes e he

theorem State.ArbiterLaw.of_same {s t : State} (h : s.ArbiterLaw) (arbiter : t.arbiter = s.arbiter)
    (same : ∀ c, t.ch c = s.ch c) : t.ArbiterLaw :=
  h.of_standing arbiter fun c => same c ▸ .refl _

/-- One channel exchanged for one of the same standing. -/
theorem State.ArbiterLaw.setCh {s : State} {c : ChanId} {k : Chan} (h : s.ArbiterLaw) (same : (s.ch c).SameStanding k) :
    (s.setCh c k).ArbiterLaw := by
  refine h.of_standing rfl fun d => ?_
  rw [State.ch_setCh]
  split
  · rename_i here
    exact here ▸ same
  · exact .refl _

/-- A channel that needs neither slot nor queue entry any more is detached. -/
theorem State.ArbiterLaw.left {s t : State} {c : ChanId} (h : s.ArbiterLaw)
    (arbiter : t.arbiter = (s.detach c).arbiter) (others : ∀ d, d ≠ c → t.ch d = s.ch d)
    (noSlot : (t.ch c).ms.state.holding = false) (noEntry : (t.ch c).ms.state ≠ .queued) : t.ArbiterLaw := by
  obtain ⟨holders, queue, once, classes, order⟩ := h
  unfold State.ArbiterLaw
  rw [arbiter]
  refine ⟨fun d => ?_, fun d => ?_, ?_, fun e he => ?_, ?_⟩
  · rw [State.mem_detach_holders]
    by_cases here : d = c
    · rw [here, noSlot]
      simp
    · rw [others d here, ← holders d]
      simp [here]
  · rw [State.mem_detach_queue]
    by_cases here : d = c
    · rw [here]
      simp [noEntry]
    · rw [others d here, ← queue d]
      simp [here]
  · exact once.sublist (List.filter_sublist.map _)
  · obtain ⟨mem, other⟩ := List.mem_filter.1 he
    rw [others e.chan (by simpa using other)]
    exact classes e mem
  · exact order.sublist List.filter_sublist

/-- The head of the queue is given a slot (R168). -/
theorem State.ArbiterLaw.grantHead {s : State} {e : QueueEntry} {rest : List QueueEntry} (h : s.ArbiterLaw)
    (head : s.arbiter.queue = e :: rest) :
    (State.grant { s with arbiter := { s.arbiter with queue := rest } } e.chan).ArbiterLaw := by
  obtain ⟨holders, queue, once, classes, order⟩ := h
  rw [head] at queue once classes order
  obtain ⟨m, motion⟩ : ∃ m, (s.ch e.chan).ms.motion = some m := by
    have cls := classes e (List.mem_cons_self ..)
    exact Option.isSome_iff_exists.1 (by rw [← Option.isSome_map, cls]; rfl)
  obtain ⟨notTwice, onceRest⟩ := List.nodup_cons.1 once
  have granted : State.grant { s with arbiter := { s.arbiter with queue := rest } } e.chan =
      { s.setCh e.chan ((s.ch e.chan).enterStartup s.supply m) with
        arbiter := ⟨insertChan e.chan s.arbiter.holders, rest⟩ } := by
    unfold State.grant
    rw [State.ch_mk, motion]
    rfl
  have chan (d : ChanId) : (State.grant { s with arbiter := { s.arbiter with queue := rest } } e.chan).ch d =
      if d = e.chan then (s.ch e.chan).enterStartup s.supply m else s.ch d := by
    rw [granted, State.ch_mk]
    exact State.ch_setCh s e.chan d _
  unfold State.ArbiterLaw
  simp only [chan]
  rw [granted]
  refine ⟨fun d => ?_, fun d => ?_, onceRest, fun f hf => ?_, (List.pairwise_cons.1 order).2⟩
  · rw [mem_insertChan]
    split
    · rename_i here
      simp [here, Chan.enterStartup, ChState.holding]
    · rename_i other
      rw [← holders d]
      simp [other]
  · split
    · rename_i here
      rw [here]
      exact ⟨fun mem => (notTwice mem).elim, fun queued => by cases queued⟩
    · rename_i other
      rw [← queue d, List.map_cons, List.mem_cons]
      simp [other]
  · have other : f.chan ≠ e.chan := by
      rintro same
      exact notTwice (same ▸ List.mem_map_of_mem hf)
    rw [if_neg other]
    exact classes f (List.mem_cons_of_mem _ hf)

theorem State.ArbiterLaw.grantHeads (n : Nat) {s : State} (h : s.ArbiterLaw) : (State.grantHeads n s).ArbiterLaw := by
  induction n generalizing s with
  | zero => exact h
  | succ n ih =>
    unfold State.grantHeads
    split
    · exact h
    · rename_i head
      split
      · exact ih (h.grantHead head)
      · exact h

theorem State.ArbiterLaw.grantPass {s : State} (h : s.ArbiterLaw) : s.grantPass.ArbiterLaw := h.grantHeads _

theorem State.ArbiterLaw.leaveArbiter {s u : State} {c : ChanId} (h : s.ArbiterLaw) (arbiter : u.arbiter = s.arbiter)
    (others : ∀ d, d ≠ c → u.ch d = s.ch d) (noSlot : (u.ch c).ms.state.holding = false)
    (noEntry : (u.ch c).ms.state ≠ .queued) : (u.leaveArbiter c).ArbiterLaw := by
  have detached : (u.detach c).ArbiterLaw :=
    h.left (by simp only [State.detach, arbiter]) others noSlot noEntry
  unfold State.leaveArbiter
  split
  · exact detached.grantPass
  · exact detached

theorem State.ArbiterLaw.endIdle {s : State} {c : ChanId} {r : MotionResult} (h : s.ArbiterLaw) :
    (s.endIdle c r).ArbiterLaw := by
  have self : (((s.modCh c Chan.enterIdle).postMotionEnd c r).ch c) = (s.ch c).enterIdle := by simp
  refine h.leaveArbiter rfl (fun d other => ?_) ?_ ?_
  · rw [State.ch_postMotionEnd, State.modCh_eq, State.ch_setCh_ne _ _ other]
  · rw [self]
    rfl
  · rw [self]
    simp [Chan.enterIdle, Chan.rest]

theorem State.ArbiterLaw.enterFault {s : State} {c : ChanId} {q : FaultCause} (h : s.ArbiterLaw) :
    (s.enterFault c q).ArbiterLaw := by
  refine h.leaveArbiter (State.stopToFault_arbiter s c q) (fun d other => State.ch_stopToFault s c d q other) ?_ ?_
  · rw [State.ch_stopToFault_self]
    rfl
  · rw [State.ch_stopToFault_self]
    simp [Chan.rest]

theorem State.ArbiterLaw.assertOn {s : State} (l : LineId) (c : ChanId) (h : s.ArbiterLaw) :
    (s.assertOn l c).ArbiterLaw := by
  by_cases acts : s.assertable c = true
  · have told := State.ch_assertOn_self s l c acts
    refine h.left (c := c) ?_ (fun d other => State.ch_assertOn s l c d other) ?_ ?_
    · rw [State.assertOn_eq s l c acts]
      simp [State.detach]
    · rw [told]
      rfl
    · rw [told]
      simp [Chan.rest]
  · have still : s.assertOn l c = s := by
      unfold State.assertable at acts
      unfold State.assertOn
      split at acts <;> simp_all
    rw [still]
    exact h

theorem State.ArbiterLaw.assertOnAll {s : State} (l : LineId) (cs : List ChanId) (h : s.ArbiterLaw) :
    (s.assertOnAll l cs).ArbiterLaw := by
  have told : ((s.openOrder (cs.filter s.assertable)).foldl (fun s c => s.assertOn l c) s.countRace).ArbiterLaw :=
    List.foldlRecOn (motive := State.ArbiterLaw) _ _ (h.of_same rfl fun _ => rfl) (fun u hu c _ => hu.assertOn l c)
  unfold State.assertOnAll
  dsimp only
  split
  · exact told.grantPass
  · exact told

theorem State.ArbiterLaw.assertLine {s : State} (l : LineId) (h : s.ArbiterLaw) : (s.assertLine l).ArbiterLaw := by
  have lined : State.ArbiterLaw { s with lines := s.lines.set l { s.lines[l] with asserted := true, latch := true } } :=
    h.of_same rfl fun _ => rfl
  exact (lined.assertOnAll l (chansOf s.device.maps[l])).of_same rfl fun _ => rfl

theorem State.ArbiterLaw.judgeLatch {s : State} (l : LineId) (h : s.ArbiterLaw) : (s.judgeLatch l).ArbiterLaw :=
  h.of_same (State.judgeLatch_arbiter s l) (State.ch_judgeLatch s l)

theorem State.ArbiterLaw.writeMap {s : State} (l : LineId) (v : Nat) (h : s.ArbiterLaw) : (s.writeMap l v).ArbiterLaw := by
  have stored : State.ArbiterLaw { s with device := s.device.put (.lineMap l) v } := h.of_same rfl fun _ => rfl
  unfold State.writeMap
  dsimp only
  split
  · exact (stored.assertOnAll l _).judgeLatch l
  · exact stored.judgeLatch l

theorem insertEntry_perm (e : QueueEntry) (q : List QueueEntry) : (insertEntry e q).Perm (e :: q) := by
  induction q with
  | nil => exact .refl _
  | cons d ds ih =>
    unfold insertEntry
    split
    · exact .refl _
    · exact (ih.cons d).trans (.swap e d ds)

theorem heldFirst_insertEntry (e : QueueEntry) {q : List QueueEntry} (h : heldFirst q) : heldFirst (insertEntry e q) := by
  induction q with
  | nil => simp [insertEntry, heldFirst]
  | cons d ds ih =>
    obtain ⟨first, rest⟩ := List.pairwise_cons.1 h
    unfold insertEntry
    split
    · rename_i before
      simp only [Bool.and_eq_true] at before
      exact List.pairwise_cons.2 ⟨fun _ _ _ => before.1, h⟩
    · rename_i behind
      refine List.pairwise_cons.2 ⟨fun f hf held => ?_, ih rest⟩
      rcases List.mem_cons.1 ((insertEntry_perm e ds).mem_iff.1 hf) with rfl | hf
      · simpa [held] using behind
      · exact first f hf held

/-- A channel joins the queue behind every entry of its class (R166, R167). -/
theorem State.ArbiterLaw.enqueued {s t : State} {c : ChanId} {held : Bool} (h : s.ArbiterLaw)
    (others : ∀ d, d ≠ c → t.ch d = s.ch d) (wasNot : c ∉ s.arbiter.queue.map QueueEntry.chan)
    (noSlot : c ∉ s.arbiter.holders) (state : (t.ch c).ms.state = .queued)
    (cls : (t.ch c).ms.motion.map Motion.held = some held)
    (arbiter : t.arbiter = ⟨s.arbiter.holders, insertEntry ⟨c, held⟩ s.arbiter.queue⟩) : t.ArbiterLaw := by
  obtain ⟨holders, queue, once, classes, order⟩ := h
  have perm := insertEntry_perm ⟨c, held⟩ s.arbiter.queue
  have chans := perm.map QueueEntry.chan
  unfold State.ArbiterLaw
  rw [arbiter]
  refine ⟨fun d => ?_, fun d => ?_, ?_, fun e he => ?_, heldFirst_insertEntry _ order⟩
  · by_cases here : d = c
    · rw [here, state]
      simp [noSlot, ChState.holding]
    · rw [others d here]
      exact holders d
  · rw [chans.mem_iff, List.map_cons, List.mem_cons]
    by_cases here : d = c
    · simp [here, state]
    · rw [others d here, ← queue d]
      simp [here]
  · rw [chans.nodup_iff, List.map_cons, List.nodup_cons]
    exact ⟨wasNot, once⟩
  · rcases List.mem_cons.1 (perm.mem_iff.1 he) with rfl | he
    · exact cls
    · have other : e.chan ≠ c := fun same => wasNot (same ▸ List.mem_map_of_mem he)
      rw [others e.chan other]
      exact classes e he

theorem State.ArbiterLaw.apart_of_idle {s : State} {c : ChanId} (h : s.ArbiterLaw) (idle : (s.ch c).ms.state = .idle) :
    c ∉ s.arbiter.holders ∧ c ∉ s.arbiter.queue.map QueueEntry.chan := by
  obtain ⟨holders, queue, -⟩ := h
  rw [holders, queue, idle]
  simp [ChState.holding]

/-- An IDLE channel with a motion is given a slot at once (R167). -/
theorem State.ArbiterLaw.grant {s : State} {c : ChanId} {m : Motion} (h : s.ArbiterLaw)
    (idle : (s.ch c).ms.state = .idle) (motion : (s.ch c).ms.motion = some m) : (s.grant c).ArbiterLaw := by
  obtain ⟨-, noEntry⟩ := h.apart_of_idle idle
  obtain ⟨holders, queue, once, classes, order⟩ := h
  have arbiter : (s.grant c).arbiter = ⟨insertChan c s.arbiter.holders, s.arbiter.queue⟩ := by
    unfold State.grant
    rw [motion]
    rfl
  have chan (d : ChanId) : (s.grant c).ch d = if d = c then (s.ch c).enterStartup s.supply m else s.ch d := by
    unfold State.grant
    rw [motion]
    exact State.ch_setCh s c d _
  unfold State.ArbiterLaw
  simp only [chan, arbiter]
  refine ⟨fun d => ?_, fun d => ?_, once, fun f hf => ?_, order⟩
  · rw [mem_insertChan]
    split
    · rename_i here
      simp [here, Chan.enterStartup, ChState.holding]
    · rename_i other
      rw [← holders d]
      simp [other]
  · split
    · rename_i here
      rw [here]
      exact ⟨fun mem => (noEntry mem).elim, fun queued => by cases queued⟩
    · exact queue d
  · have other : f.chan ≠ c := fun same => noEntry (same ▸ List.mem_map_of_mem hf)
    rw [if_neg other]
    exact classes f hf

theorem State.ArbiterLaw.askSlot {s : State} {c : ChanId} {m : Motion} (h : s.ArbiterLaw)
    (idle : (s.ch c).ms.state = .idle) (motion : (s.ch c).ms.motion = some m) : (s.askSlot c m).ArbiterLaw := by
  obtain ⟨noSlot, noEntry⟩ := h.apart_of_idle idle
  unfold State.askSlot
  split
  · exact h.grant idle motion
  · refine State.ArbiterLaw.grantPass (h.enqueued (c := c) (held := m.held) (fun d other => ?_) noEntry noSlot ?_ ?_ rfl)
    · exact State.ch_setCh_ne s _ other
    · rw [State.ch_mk, State.modCh_eq, State.ch_setCh_self]
    · rw [State.ch_mk, State.modCh_eq, State.ch_setCh_self]
      simp [motion]

/-- A QUEUED channel whose motion is exchanged stands anew behind its class (R169). -/
theorem State.ArbiterLaw.requeue {s : State} {c : ChanId} {m : Motion} (h : s.ArbiterLaw)
    (queued : (s.ch c).ms.state = .queued) : State.ArbiterLaw { s.setCh c ((s.ch c).setMotion m) with
      arbiter := { s.arbiter with queue := Sys2Proof.Machine.requeue c m.held s.arbiter.queue } } := by
  have noSlot : c ∉ s.arbiter.holders := by
    rw [h.1 c, queued]
    simp [ChState.holding]
  have holders : s.arbiter.holders.filter (· != c) = s.arbiter.holders := by
    rw [List.filter_eq_self]
    intro d hd
    simp only [bne_iff_ne]
    rintro rfl
    exact noSlot hd
  have outside : State.ArbiterLaw ((s.modCh c Chan.enterIdle).detach c) :=
    h.left rfl (fun d other => by simp [other]) (by simp [Chan.enterIdle, Chan.rest, ChState.holding])
      (by simp [Chan.enterIdle, Chan.rest])
  have self : State.ch { s.setCh c ((s.ch c).setMotion m) with
      arbiter := { s.arbiter with queue := Sys2Proof.Machine.requeue c m.held s.arbiter.queue } } c =
        (s.ch c).setMotion m := State.ch_setCh_self s c _
  refine outside.enqueued (c := c) (held := m.held) (fun d other => ?_) ?_ ?_ ?_ ?_ ?_
  · rw [State.ch_detach, State.modCh_eq, State.ch_setCh_ne _ _ other]
    exact State.ch_setCh_ne s _ other
  · rw [State.mem_detach_queue]
    simp
  · rw [State.mem_detach_holders]
    simp
  · rw [self]
    exact queued
  · rw [self]
    rfl
  · simp only [State.detach, State.modCh_eq, State.setCh_arbiter, holders]
    rfl

theorem Chan.apart_of_outOfService {k : Chan} (h : k.OutOfService) : k.ms.state.holding = false ∧ k.ms.state ≠ .queued := by
  rcases h with h | h <;> simp [h, ChState.holding]

theorem State.Act.arbiterLaw {s t : State} (act : s.Act t) (h : s.ArbiterLaw) : t.ArbiterLaw := by
  cases act with
  | chan steps => exact h.setCh steps.sameStanding
  | record c q p known => exact h.of_same (s.takeRecord_arbiter c q p known) (s.ch_takeRecord c q p known)
  | supplyNormal su => exact State.ArbiterLaw.grantPass (h.of_same rfl fun _ => rfl)
  | endIdle c r => exact h.endIdle
  | enterFault c q => exact h.enterFault
  | clearFault c faulted =>
    obtain ⟨noSlot, noEntry⟩ := Chan.apart_of_outOfService (.inr faulted)
    exact h.setCh (.of_apart noSlot noEntry rfl (by simp [Chan.enterIdle, Chan.rest]))
  | enable c disabled =>
    obtain ⟨noSlot, noEntry⟩ := Chan.apart_of_outOfService (.inl disabled)
    exact h.setCh (.of_apart noSlot noEntry rfl (by simp [Chan.enable, Chan.enterIdle, Chan.rest]))
  | askSlot c m idle motion => exact h.askSlot idle motion
  | requeue c m queued => exact h.requeue queued
  | assertLine l => exact h.assertLine l
  | writeMap l v => exact h.writeMap l v
  | _ => exact h.of_same rfl fun _ => rfl

theorem State.ResetBase.arbiterLaw {s b : State} (base : s.ResetBase b) : b.ArbiterLaw := by
  unfold State.ArbiterLaw
  rw [base.arbiter]
  refine ⟨fun c => ?_, fun c => ?_, List.nodup_nil, by simp, List.Pairwise.nil⟩
  · rcases base.atRest c with state | state <;> simp [state, ChState.holding]
  · rcases base.atRest c with state | state <;> simp [state]

theorem State.ArbiterLaw.firstLineSamples {s : State} (h : s.ArbiterLaw) : s.firstLineSamples.ArbiterLaw :=
  List.foldlRecOn (motive := State.ArbiterLaw) _ State.assertLine (h.of_same rfl fun _ => rfl)
    (fun _ hu l _ => hu.assertLine l)

theorem State.Op.arbiterLaw {s t : State} (op : s.Op t) (h : s.ArbiterLaw) : t.ArbiterLaw := by
  cases op with
  | act act => exact act.arbiterLaw h
  | ticked =>
    refine h.of_standing rfl fun c => ?_
    rw [State.ch_mapCh]
    exact .of_ms rfl rfl
  | reset b base => exact base.arbiterLaw.firstLineSamples
  | _ => exact h.of_same rfl fun _ => rfl

end Sys2Proof.Machine
end

section
/-! PROOFS. No channel waits while a grant can be made, and an asserted line keeps its channels out of service. -/

namespace Sys2Proof.Machine

open Relation

/-! ## No channel waits in vain (R167, R168) -/

theorem State.NoneWaits.of_frame {s t : State} (h : s.NoneWaits) (arbiter : t.arbiter = s.arbiter)
    (slots : t.device.slotCount = s.device.slotCount) (supply : t.supply.state = s.supply.state) : t.NoneWaits := by
  unfold State.NoneWaits State.canGrant
  rw [arbiter, slots, supply]
  exact h

theorem State.noneWaits_of_empty {s : State} (empty : s.arbiter.queue = []) : s.NoneWaits := fun _ => empty

theorem State.noneWaits_of_full {s : State} (full : s.canGrant = false) : s.NoneWaits :=
  fun can => by rw [full] at can; cases can

theorem State.grant_queue (s : State) (c : ChanId) : (s.grant c).arbiter.queue = s.arbiter.queue := by
  unfold State.grant
  split <;> rfl

/-- A pass over the whole queue ends when the queue is empty or nothing can be granted any more. -/
theorem State.noneWaits_grantHeads (n : Nat) (s : State) (enough : s.arbiter.queue.length ≤ n) :
    (State.grantHeads n s).NoneWaits := by
  induction n generalizing s with
  | zero => exact State.noneWaits_of_empty (List.length_eq_zero_iff.1 (Nat.le_zero.1 enough))
  | succ n ih =>
    unfold State.grantHeads
    split
    · rename_i empty
      exact State.noneWaits_of_empty empty
    · rename_i e rest head
      split
      · refine ih _ ?_
        rw [State.grant_queue]
        rw [head] at enough
        exact Nat.le_of_succ_le_succ enough
      · rename_i full
        exact State.noneWaits_of_full (Bool.eq_false_iff.2 full)

theorem State.noneWaits_grantPass (s : State) : s.grantPass.NoneWaits := s.noneWaits_grantHeads _ le_rfl

theorem filter_ne_of_not_mem {α : Type} [DecidableEq α] {a : α} {xs : List α} (h : a ∉ xs) : xs.filter (· != a) = xs := by
  rw [List.filter_eq_self]
  intro b hb
  rw [bne_iff_ne]
  rintro rfl
  exact h hb

/-- Who holds no slot frees none by leaving. -/
theorem State.NoneWaits.detach {s : State} {c : ChanId} (h : s.NoneWaits) (noSlot : c ∉ s.arbiter.holders) :
    (s.detach c).NoneWaits := by
  intro can
  have canBefore : s.canGrant = true := by
    simp only [State.canGrant, State.detach, filter_ne_of_not_mem noSlot] at can
    exact can
  simp [State.detach, h canBefore]

theorem State.NoneWaits.leaveArbiter {s : State} (c : ChanId) (h : s.NoneWaits) : (s.leaveArbiter c).NoneWaits := by
  unfold State.leaveArbiter
  split
  · exact State.noneWaits_grantPass _
  · rename_i noSlot
    exact h.detach (by simpa using noSlot)

theorem State.NoneWaits.askSlot (s : State) (c : ChanId) (m : Motion) : (s.askSlot c m).NoneWaits := by
  unfold State.askSlot
  split
  · rename_i free
    refine State.noneWaits_of_empty ?_
    rw [State.grant_queue]
    exact List.isEmpty_iff.1 (Bool.and_eq_true_iff.1 free).2
  · exact State.noneWaits_grantPass _

/-- Channels without a slot are told of an assertion: the slots stay as they are, and an empty queue stays empty. -/
theorem State.assertOn_fold_arbiter (l : LineId) (cs : List ChanId) (s : State) (noSlot : ∀ c ∈ cs, c ∉ s.arbiter.holders) :
    (cs.foldl (fun s c => s.assertOn l c) s).arbiter.holders = s.arbiter.holders ∧
      (s.arbiter.queue = [] → (cs.foldl (fun s c => s.assertOn l c) s).arbiter.queue = []) := by
  induction cs generalizing s with
  | nil => exact ⟨rfl, id⟩
  | cons c cs ih =>
    have apart := noSlot c (List.mem_cons_self ..)
    have told : (s.assertOn l c).arbiter.holders = s.arbiter.holders ∧
        (s.arbiter.queue = [] → (s.assertOn l c).arbiter.queue = []) := by
      by_cases acts : s.assertable c = true
      · rw [State.assertOn_eq s l c acts]
        simp only [State.detach, State.stopToFault_arbiter, State.takeRecordHere_eq, State.takeRecord_arbiter,
          filter_ne_of_not_mem apart, true_and]
        rintro empty
        rw [empty]
        rfl
      · unfold State.assertOn
        unfold State.assertable at acts
        split at acts <;> simp_all
    obtain ⟨holders, queue⟩ := ih (s.assertOn l c) fun d hd => told.1 ▸ noSlot d (List.mem_cons_of_mem _ hd)
    exact ⟨holders.trans told.1, fun empty => queue (told.2 empty)⟩

theorem State.NoneWaits.assertOnAll {s : State} (l : LineId) (cs : List ChanId) (h : s.NoneWaits) :
    (s.assertOnAll l cs).NoneWaits := by
  unfold State.assertOnAll
  dsimp only
  split
  · exact State.noneWaits_grantPass _
  · rename_i noneHolds
    have apart : ∀ c ∈ s.openOrder (cs.filter s.assertable), c ∉ s.arbiter.holders := by
      intro c hc held
      have acting : c ∈ cs.filter s.assertable := (orderByKey_perm _ _).mem_iff.1 hc
      exact noneHolds (List.any_eq_true.2 ⟨c, acting, List.contains_iff_mem.2 held⟩)
    obtain ⟨holders, queue⟩ := State.assertOn_fold_arbiter l _ s.countRace apart
    obtain ⟨supply, device, -⟩ := State.assertOn_fold_frame l (s.openOrder (cs.filter s.assertable)) s.countRace
    intro can
    refine queue (h ?_)
    simp only [State.canGrant, holders, supply, device] at can
    exact can

theorem State.NoneWaits.assertLine {s : State} (l : LineId) (h : s.NoneWaits) : (s.assertLine l).NoneWaits := by
  have lined : State.NoneWaits { s with lines := s.lines.set l { s.lines[l] with asserted := true, latch := true } } :=
    h.of_frame rfl rfl rfl
  exact (lined.assertOnAll l (chansOf s.device.maps[l])).of_frame rfl rfl rfl

theorem State.NoneWaits.writeMap {s : State} (l : LineId) (v : Nat) (h : s.NoneWaits) : (s.writeMap l v).NoneWaits := by
  have stored : State.NoneWaits { s with device := s.device.put (.lineMap l) v } := h.of_frame rfl rfl rfl
  have judged {u : State} (hu : u.NoneWaits) : (u.judgeLatch l).NoneWaits :=
    hu.of_frame (State.judgeLatch_arbiter u l) (by rw [State.judgeLatch_device]) (by rw [State.judgeLatch_supply])
  unfold State.writeMap
  dsimp only
  split
  · exact judged (stored.assertOnAll l _)
  · exact judged stored

theorem State.canGrant_iff {s : State} : s.canGrant = true ↔
    s.arbiter.holders.length < s.device.slotCount ∧ s.supply.state = .normal := by
  simp [State.canGrant]

theorem State.Act.noneWaits {s t : State} (act : s.Act t) (slots : s.SlotLaw) (arbiter : s.ArbiterLaw)
    (sampled : s.supply.hist ≠ []) (h : s.NoneWaits) : t.NoneWaits := by
  cases act with
  | record c q p known => exact h.of_frame (by simp) (by simp) (by simp)
  | supply su _ noGrants =>
    intro can
    obtain ⟨free, normal⟩ := State.canGrant_iff.1 can
    exact h (State.canGrant_iff.2 ⟨free, noGrants sampled normal⟩)
  | supplyNormal su => exact State.noneWaits_grantPass _
  | device d _ count =>
    intro can
    obtain ⟨free, normal⟩ := State.canGrant_iff.1 can
    rcases count with same | ⟨none, -⟩
    · exact h (State.canGrant_iff.2 ⟨same ▸ free, normal⟩)
    · exact h (State.canGrant_iff.2 ⟨by rw [none]; exact slots.2.2.1, normal⟩)
  | endIdle c r =>
    have ended : ((s.modCh c Chan.enterIdle).postMotionEnd c r).NoneWaits := h.of_frame rfl rfl rfl
    exact ended.leaveArbiter c
  | enterFault c q =>
    have stopped : (s.stopToFault c q).NoneWaits := h.of_frame (by simp) (by simp) (by simp)
    exact stopped.leaveArbiter c
  | askSlot c m => exact State.NoneWaits.askSlot s c m
  | requeue c m queued =>
    refine State.noneWaits_of_full (Bool.eq_false_iff.2 fun can => ?_)
    have mem := (arbiter.2.1 c).2 queued
    rw [h can] at mem
    cases mem
  | assertLine l => exact h.assertLine l
  | writeMap l v => exact h.writeMap l v
  | _ => exact h.of_frame rfl rfl rfl

theorem State.Act.slotLaw {s t : State} (act : s.Act t) (h : s.SlotLaw) : t.SlotLaw := by
  cases act with
  | record c q p known => exact h.of_frame (by simp) (by simp)
  | supplyNormal su => exact State.SlotLaw.grantPass (h.of_frame rfl rfl)
  | device d _ count =>
    rcases count with same | ⟨none, one, four⟩
    · exact h.of_frame rfl same
    · exact State.SlotLaw.of_noHolders none one four
  | endIdle c r => exact h.endIdle
  | enterFault c q => exact h.enterFault
  | askSlot c m => exact h.askSlot
  | assertLine l => exact h.assertLine l
  | writeMap l v => exact h.writeMap
  | _ => exact h.of_frame rfl rfl

theorem State.NoneWaits.firstLineSamples {s : State} (h : s.NoneWaits) : s.firstLineSamples.NoneWaits :=
  List.foldlRecOn (motive := State.NoneWaits) _ State.assertLine (h.of_frame rfl rfl rfl)
    (fun _ hu l _ => hu.assertLine l)

/-- The laws that carry each other: slots, queue, supply history, and no channel waiting in vain. -/
structure State.GrantLaws (s : State) : Prop where
  slots : s.SlotLaw
  arbiter : s.ArbiterLaw
  sampled : s.supply.hist ≠ []
  noneWaits : s.NoneWaits

theorem State.ResetBase.slotLaw {s b : State} (base : s.ResetBase b) (h : s.SlotLaw) : b.SlotLaw := by
  obtain ⟨-, -, one, four⟩ := h
  have range : 1 ≤ b.device.slotCount ∧ b.device.slotCount ≤ 4 := by
    rcases base.slots with same | two
    · exact same ▸ ⟨one, four⟩
    · exact two ▸ ⟨by decide, by decide⟩
  exact State.SlotLaw.of_noHolders (by rw [base.arbiter]) range.1 range.2

theorem State.Op.grantLaws {s t : State} (op : s.Op t) (h : s.GrantLaws) : t.GrantLaws := by
  have sampled := op.sampled h.sampled
  have arbiter := op.arbiterLaw h.arbiter
  cases op with
  | act act => exact ⟨act.slotLaw h.slots, arbiter, sampled, act.noneWaits h.slots h.arbiter h.sampled h.noneWaits⟩
  | reset b base =>
    have unqueued : b.NoneWaits := State.noneWaits_of_empty (by rw [base.arbiter])
    exact ⟨(base.slotLaw h.slots).firstLineSamples, arbiter, sampled, unqueued.firstLineSamples⟩
  | _ => exact ⟨h.slots.of_frame rfl rfl, arbiter, sampled, h.noneWaits.of_frame rfl rfl rfl⟩

/-- Settles O10: each update keeps slots and queue in step with the states, and ends with a grant pass where it frees a
slot or brings the supply back to NORMAL. -/
theorem arbiterMatchesChannelStates : Obligations.ArbiterMatchesChannelStates := by
  refine ⟨fun s t law e => step_keeps (P := State.ArbiterLaw) State.Op.arbiterLaw e law,
    fun s t slots arbiter noneWaits sampled e => ?_, by decide,
    fun s t law e => step_keeps (P := fun s => s.supply.hist ≠ []) State.Op.sampled e law⟩
  exact (step_keeps (P := State.GrantLaws) State.Op.grantLaws e ⟨slots, arbiter, sampled, noneWaits⟩).noneWaits

/-! ## Fault lines (R52) -/

/-- The fault line law, with the standing of a channel by name. -/
theorem State.faultLineLaw_iff {s : State} : s.FaultLineLaw ↔
    ∀ (l : LineId) (c : ChanId), s.lines[l].asserted = true → inSet s.device.maps[l] c = true → (s.ch c).OutOfService :=
  Iff.rfl

theorem State.FaultLineLaw.of_frame {s t : State} (h : s.FaultLineLaw) (maps : t.device.maps = s.device.maps)
    (lines : ∀ l : LineId, t.lines[l].asserted = true → s.lines[l].asserted = true)
    (stays : ∀ c, (s.ch c).OutOfService → (t.ch c).OutOfService) : t.FaultLineLaw := by
  intro l c asserted mapped
  rw [maps] at mapped
  exact stays c (h l c (lines l asserted) mapped)

/-- Who is out of service stands in no queue, so no grant reaches it. -/
theorem State.ArbiterLaw.unqueued {s : State} (h : s.ArbiterLaw) {c : ChanId} (out : (s.ch c).OutOfService) :
    c ∉ s.arbiter.queue.map QueueEntry.chan := by
  rw [h.2.1 c]
  exact (Chan.apart_of_outOfService out).2

theorem State.ArbiterLaw.grantPass_outOfService {s : State} (h : s.ArbiterLaw) {c : ChanId} (out : (s.ch c).OutOfService) :
    (s.grantPass.ch c).OutOfService := by
  rw [State.ch_grantPass s c (h.unqueued out)]
  exact out

/-- A channel in service leaves the arbiter; whoever is out of service stays so. -/
theorem State.ArbiterLaw.endIdle_outOfService {s : State} {c d : ChanId} {r : MotionResult} (h : s.ArbiterLaw)
    (moving : (s.ch c).ms.state.holding = true ∨ (s.ch c).ms.state = .queued) (out : (s.ch d).OutOfService) :
    ((s.endIdle c r).ch d).OutOfService := by
  have other : d ≠ c := by
    rintro rfl
    exact ChState.not_outOfService (moving.imp_right .inl) out
  rw [State.ch_endIdle s c d r other (h.unqueued out)]
  exact out

theorem State.ArbiterLaw.enterFault_outOfService {s : State} {c d : ChanId} {q : FaultCause} (h : s.ArbiterLaw)
    (out : (s.ch d).OutOfService) : ((s.enterFault c q).ch d).OutOfService := by
  by_cases here : d = c
  · rw [here, State.ch_enterFault_self]
    exact .inr rfl
  · rw [State.ch_enterFault s c d q here (h.unqueued out)]
    exact out

theorem State.ArbiterLaw.askSlot_outOfService {s : State} {c d : ChanId} {m : Motion} (h : s.ArbiterLaw)
    (idle : (s.ch c).ms.state = .idle) (motion : (s.ch c).ms.motion = some m) (out : (s.ch d).OutOfService) :
    ((s.askSlot c m).ch d).OutOfService := by
  have other : d ≠ c := by
    rintro rfl
    exact ChState.not_outOfService (.inr (.inr idle)) out
  obtain ⟨noSlot, noEntry⟩ := h.apart_of_idle idle
  unfold State.askSlot
  split
  · rw [State.ch_grant_ne s other]
    exact out
  · refine State.ArbiterLaw.grantPass_outOfService (h.enqueued (c := c) (held := m.held) (fun d other => ?_) noEntry
      noSlot ?_ ?_ rfl) ?_
    · exact State.ch_setCh_ne s _ other
    · rw [State.ch_mk, State.modCh_eq, State.ch_setCh_self]
    · rw [State.ch_mk, State.modCh_eq, State.ch_setCh_self]
      simp [motion]
    · rw [State.ch_mk, State.modCh_eq, State.ch_setCh_ne _ _ other]
      exact out

theorem State.assertOn_outOfService (s : State) (l : LineId) (c d : ChanId) (out : (s.ch d).OutOfService ∨ d = c) :
    ((s.assertOn l c).ch d).OutOfService := by
  by_cases acts : s.assertable c = true
  · by_cases here : d = c
    · rw [here, State.ch_assertOn_self s l c acts]
      exact .inr rfl
    · rw [State.ch_assertOn s l c d here]
      exact out.resolve_right here
  · have rests : (s.ch c).OutOfService := by
      rw [State.assertable_iff] at acts
      by_contra inService
      exact acts (not_or.1 inService)
    by_cases here : d = c
    · have still : s.assertOn l c = s := by
        unfold State.assertOn
        rcases rests with rests | rests <;> rw [rests]
      rw [here, still]
      exact rests
    · rw [State.ch_assertOn s l c d here]
      exact out.resolve_right here

theorem State.assertOn_fold_outOfService (l : LineId) (cs : List ChanId) (s : State) (d : ChanId)
    (out : (s.ch d).OutOfService ∨ d ∈ cs) : ((cs.foldl (fun s c => s.assertOn l c) s).ch d).OutOfService := by
  induction cs generalizing s with
  | nil => exact out.resolve_right (List.not_mem_nil)
  | cons c cs ih =>
    refine ih (s.assertOn l c) ?_
    rcases out with out | mem
    · exact .inl (s.assertOn_outOfService l c d (.inl out))
    · rcases List.mem_cons.1 mem with here | mem
      · exact .inl (s.assertOn_outOfService l c d (.inr here))
      · exact .inr mem

/-- Every channel told of an assertion is out of service afterwards, and whoever was before still is. -/
theorem State.ArbiterLaw.assertOnAll_outOfService {s : State} (h : s.ArbiterLaw) (l : LineId) (cs : List ChanId)
    {d : ChanId} (out : (s.ch d).OutOfService ∨ d ∈ cs) : ((s.assertOnAll l cs).ch d).OutOfService := by
  have told : (((s.openOrder (cs.filter s.assertable)).foldl (fun s c => s.assertOn l c) s.countRace).ch d).OutOfService := by
    refine State.assertOn_fold_outOfService l _ _ d ?_
    by_cases rests : (s.ch d).OutOfService
    · exact .inl rests
    · exact .inr ((orderByKey_perm _ _).mem_iff.2 (List.mem_filter.2
        ⟨out.resolve_left rests, (State.assertable_iff s d).2 (not_or.1 rests)⟩))
  have arbiter : ((s.openOrder (cs.filter s.assertable)).foldl (fun s c => s.assertOn l c) s.countRace).ArbiterLaw :=
    List.foldlRecOn (motive := State.ArbiterLaw) _ _ (h.of_same rfl fun _ => rfl) (fun _ hu c _ => hu.assertOn l c)
  unfold State.assertOnAll
  dsimp only
  split
  · exact arbiter.grantPass_outOfService told
  · exact told

theorem State.FaultLineLaw.assertLine {s : State} (l : LineId) (arbiter : s.ArbiterLaw) (h : s.FaultLineLaw) :
    (s.assertLine l).FaultLineLaw := by
  have lined : State.ArbiterLaw { s with lines := s.lines.set l { s.lines[l] with asserted := true, latch := true } } :=
    arbiter.of_same rfl fun _ => rfl
  have told {d : ChanId} (out : (s.ch d).OutOfService ∨ d ∈ chansOf s.device.maps[l]) :
      ((s.assertLine l).ch d).OutOfService := lined.assertOnAll_outOfService l _ out
  intro j c asserted mapped
  rw [State.assertLine_device] at mapped
  by_cases here : j = l
  · exact told (.inr (mem_chansOf.2 (here ▸ mapped)))
  · rw [State.assertLine_lines] at asserted
    have before : s.lines[j].asserted = true := by
      simpa [Vector.getElem_set_ne, Fin.val_ne_of_ne (Ne.symm here)] using asserted
    exact told (.inl (h j c before mapped))

theorem Device.put_maps (d : Device) (l j : LineId) (v : Nat) :
    (d.put (.lineMap l) v).maps[j] = if j = l then BitVec.ofNat 8 v else d.maps[j] := by
  by_cases here : j = l
  · rw [here]
    simp [Device.put]
  · simp [Device.put, here, Vector.getElem_set_ne, Fin.val_ne_of_ne (Ne.symm here)]

theorem State.judgeLatch_asserted (s : State) (l j : LineId) : (s.judgeLatch l).lines[j].asserted = s.lines[j].asserted := by
  rw [(s.judgeLatch_line l j).1]

/-- A channel added to an asserted line's map is told; one that was in the map before is out of service already (R55). -/
theorem State.FaultLineLaw.writeMap {s : State} (l : LineId) (v : Nat) (arbiter : s.ArbiterLaw) (h : s.FaultLineLaw) :
    (s.writeMap l v).FaultLineLaw := by
  have stored : State.ArbiterLaw { s with device := s.device.put (.lineMap l) v } := arbiter.of_same rfl fun _ => rfl
  unfold State.writeMap
  dsimp only
  split
  · intro j c asserted mapped
    rw [State.judgeLatch_asserted, (State.assertOnAll_frame _ _ _).2.2] at asserted
    rw [State.judgeLatch_device, (State.assertOnAll_frame _ _ _).2.1] at mapped
    rw [State.ch_judgeLatch]
    refine stored.assertOnAll_outOfService l _ ?_
    rw [Device.put_maps] at mapped
    split at mapped
    · rename_i here
      by_cases was : inSet s.device.maps[l] c = true
      · exact .inl (h j c asserted (here ▸ was))
      · refine .inr (List.mem_filter.2 ⟨mem_chansOf.2 ?_, by simpa using was⟩)
        rw [Device.put_maps, if_pos rfl]
        exact mapped
    · exact .inl (h j c asserted mapped)
  · rename_i released
    intro j c asserted mapped
    rw [State.judgeLatch_asserted] at asserted
    rw [State.judgeLatch_device, Device.put_maps] at mapped
    rw [State.ch_judgeLatch]
    split at mapped
    · rename_i here
      exact (released (here ▸ asserted)).elim
    · exact h j c asserted mapped

theorem mem_allLines (l : LineId) : l ∈ allLines := by
  revert l
  decide

theorem State.faultedBy_iff {s : State} {c : ChanId} :
    s.faultedBy c = true ↔ ∃ l : LineId, s.lines[l].asserted = true ∧ inSet s.device.maps[l] c = true := by
  simp only [State.faultedBy, List.any_eq_true, Bool.and_eq_true, mem_allLines, true_and]

/-- A channel that no asserted line maps may come into service. -/
theorem State.FaultLineLaw.setCh_free {s : State} {c : ChanId} {k : Chan} (h : s.FaultLineLaw)
    (free : s.faultedBy c = false) : (s.setCh c k).FaultLineLaw := by
  intro l d asserted mapped
  have other : d ≠ c := by
    rintro rfl
    exact Bool.eq_false_iff.1 free (State.faultedBy_iff.2 ⟨l, asserted, mapped⟩)
  rw [State.ch_setCh_ne _ _ other]
  exact h l d asserted mapped

theorem State.outOfService_setCh {s : State} {c d : ChanId} {k : Chan} (stays : (s.ch c).OutOfService → k.OutOfService)
    (out : (s.ch d).OutOfService) : ((s.setCh c k).ch d).OutOfService := by
  rw [State.ch_setCh]
  split
  · rename_i here
    exact stays (here ▸ out)
  · exact out

theorem State.Act.faultLineLaw {s t : State} (act : s.Act t) (arbiter : s.ArbiterLaw) (h : s.FaultLineLaw) :
    t.FaultLineLaw := by
  cases act with
  | chan steps => exact h.of_frame rfl (fun _ => id) fun d => State.outOfService_setCh steps.outOfService
  | record c q p known =>
    exact h.of_frame (by simp) (by simp) fun d out => by rw [State.ch_takeRecord]; exact out
  | lines ls n noneAsserted => exact h.of_frame rfl noneAsserted fun _ => id
  | supplyNormal su =>
    have resupplied : State.ArbiterLaw { s with supply := su } := arbiter.of_same rfl fun _ => rfl
    exact h.of_frame (by simp) (by simp) fun d => resupplied.grantPass_outOfService
  | device d maps => exact h.of_frame maps (fun _ => id) fun _ => id
  | endIdle c r moving => exact h.of_frame (by simp) (by simp) fun d => arbiter.endIdle_outOfService moving
  | enterFault c q => exact h.of_frame (by simp) (by simp) fun d => arbiter.enterFault_outOfService
  | clearFault c _ free => exact h.setCh_free free
  | enable c _ free => exact h.setCh_free free
  | askSlot c m idle motion =>
    have frame : (s.askSlot c m).device = s.device ∧ (s.askSlot c m).lines = s.lines := by
      unfold State.askSlot
      split <;> simp
    exact h.of_frame (by rw [frame.1]) (by rw [frame.2]; exact fun _ => id)
      fun d => arbiter.askSlot_outOfService idle motion
  | requeue c m queued =>
    refine h.of_frame rfl (fun _ => id) fun d out => ?_
    exact State.outOfService_setCh (s := s) (fun wasOut => (ChState.not_outOfService (.inr (.inl queued)) wasOut).elim) out
  | assertLine l => exact h.assertLine l arbiter
  | writeMap l v => exact h.writeMap l v arbiter
  | _ => exact h.of_frame rfl (fun _ => id) fun _ => id

/-- The first samples after a reset find every enabled channel IDLE, and fault those an active line maps (R58). -/
theorem State.ResetBase.faultLineLaw {s b : State} (base : s.ResetBase b) : b.firstLineSamples.FaultLineLaw := by
  obtain ⟨told, faults, -, reached, -, -, lines, -⟩ := b.firstLineSamples_spec base.arbiter base.atRest base.free
    base.waiting (by rw [base.link]; rfl)
  have device : b.firstLineSamples.device = b.device :=
    List.foldlRecOn (motive := fun u : State => u.device = b.device) _ State.assertLine rfl
      (fun u hu l _ => (u.assertLine_device l).trans hu)
  intro l c asserted mapped
  rw [device] at mapped
  rw [lines l] at asserted
  by_cases isTold : c ∈ told.map Prod.fst
  · obtain ⟨p, hp, rfl⟩ := List.mem_map.1 isTold
    rw [faults.hit p hp]
    exact .inr rfl
  · rw [faults.rest c isTold]
    rcases base.atRest c with idle | disabled
    · exact (isTold (reached l c asserted mapped idle)).elim
    · exact .inl disabled

theorem State.Op.faultLineLaw {s t : State} (op : s.Op t) (h : s.ArbiterLaw ∧ s.FaultLineLaw) :
    t.ArbiterLaw ∧ t.FaultLineLaw := by
  refine ⟨op.arbiterLaw h.1, ?_⟩
  obtain ⟨arbiter, law⟩ := h
  cases op with
  | act act => exact act.faultLineLaw arbiter law
  | ticked =>
    refine law.of_frame rfl (fun _ => id) fun c out => ?_
    rw [State.ch_mapCh]
    exact out
  | reset b base => exact base.faultLineLaw
  | _ => exact law.of_frame rfl (fun _ => id) fun _ => id

theorem Chan.OutputsFollow.off {k : Chan} (h : k.OutputsFollow) (out : k.OutOfService) : k.out.mode = .off := by
  unfold Chan.OutputsFollow at h
  rcases out with state | state <;> rw [state] at h <;> exact h.1

/-- Settles O11: each update keeps outputs by state, and channels under an asserted line out of service, so OFF. -/
theorem outputsFollowStateAndFaultLines : Obligations.OutputsFollowStateAndFaultLines := by
  refine ⟨fun s t law e => step_outputsLaw law e, fun s t faultLines arbiter outputs e => ?_⟩
  obtain ⟨-, law⟩ := step_keeps (P := fun s => s.ArbiterLaw ∧ s.FaultLineLaw) State.Op.faultLineLaw e ⟨arbiter, faultLines⟩
  exact ⟨law, fun l c asserted mapped => (step_outputsLaw outputs e c).off (law l c asserted mapped)⟩

end Sys2Proof.Machine
end

section
/-! PROOFS. The serial link: the transmitter and its notices, the receiver, and what a request that is turned away does. -/

namespace Sys2Proof.Machine

open Relation

/-! ## The search for a notice (R189) -/

theorem Notices.takeAt_none {n : Notices} {p : Fin 9} : n.takeAt p = none ↔ n.occupied p = false := by
  unfold Notices.takeAt Notices.occupied
  cases channelAt p with
  | some c =>
    dsimp only
    cases n.motionEnd[c] <;> cases n.incident[c] <;> simp
  | none =>
    dsimp only
    cases n.faultLine <;> cases n.supply <;> simp

/-- The search stops at the first position that holds an entry. -/
theorem Notices.search_of_first {n : Notices} {p : Fin 9} {r : List Byte × Notices} (takes : n.takeAt p = some r) :
    ∀ ps : List (Fin 9), p ∈ ps → (∀ q ∈ ps.takeWhile (· != p), n.takeAt q = none) → n.search ps = some (p, r)
  | [], mem, _ => nomatch mem
  | q :: ps, mem, before => by
    unfold Notices.search
    by_cases here : q = p
    · rw [here, takes]
    · have skipped : (q :: ps).takeWhile (· != p) = q :: ps.takeWhile (· != p) :=
        List.takeWhile_cons_of_pos (by simpa using here)
      rw [skipped] at before
      rw [before q List.mem_cons_self]
      exact search_of_first takes ps ((List.mem_cons.1 mem).resolve_left (Ne.symm here))
        fun x hx => before x (List.mem_cons_of_mem q hx)

theorem Notices.search_none {n : Notices} : ∀ ps : List (Fin 9), n.search ps = none ↔ ∀ p ∈ ps, n.takeAt p = none
  | [] => by simp [Notices.search]
  | p :: ps => by
    unfold Notices.search
    rw [List.forall_mem_cons]
    cases taken : n.takeAt p with
    | none => simpa using search_none ps
    | some r => simp

theorem mem_searchOrder (last p : Fin 9) : p ∈ searchOrder last := by
  revert last p
  decide

theorem before_searchOrder (last p : Fin 9) :
    ∀ q ∈ (searchOrder last).takeWhile (· != p), (q - last - 1 : Fin 9) < p - last - 1 := by
  revert last p
  decide

theorem channelAt_eq {p : Fin 9} {c : ChanId} (h : p.val = c.val) : channelAt p = some c := by
  simp [channelAt, h]

theorem channelAt_last {p : Fin 9} (h : p.val = 8) : channelAt p = none := by simp [channelAt, h]

/-- A pending set that holds nothing at any position is the empty one. -/
theorem Notices.eq_empty {n : Notices} (h : ∀ p, n.occupied p = false) : n = Notices.empty := by
  have shared : n.faultLine = none ∧ n.supply = none := by simpa [Notices.occupied, channelAt] using h 8
  have own (c : ChanId) : n.motionEnd[c] = none ∧ n.incident[c] = none := by
    have at_c := h c.castSucc
    rw [Notices.occupied, channelAt_eq (c := c) rfl] at at_c
    simpa using at_c
  have ends : n.motionEnd = Vector.replicate 8 none := by
    ext i hi : 1
    simpa using (own ⟨i, hi⟩).1
  have incidents : n.incident = Vector.replicate 8 none := by
    ext i hi : 1
    simpa using (own ⟨i, hi⟩).2
  cases n
  simp_all [Notices.empty]

/-! ## The transmitter (R187) -/

theorem Link.serve_reply {l : Link} {r : Reply} {rest : List Reply} (free : l.sending = none) (waits : l.replies = r :: rest) :
    l.serve = { l with sending := some ⟨true, wireFrame r.type r.tag r.payload, (r.payload.length + 5) * 40⟩ } := by
  have length : lineTime (wireFrame r.type r.tag r.payload) = (r.payload.length + 5) * 40 := by simp [lineTime, wireFrame]
  unfold Link.serve
  simp only [free, waits, length]

/-- With no reply waiting a free transmitter takes what the search finds. -/
theorem Link.serve_search {l : Link} (free : l.sending = none) (noReply : l.replies = []) :
    l.serve = match l.notices.search (searchOrder l.lastServed) with
      | some (p, bytes, rest) =>
        { l with sending := some ⟨false, bytes, bytes.length * 40⟩, notices := rest, lastServed := p }
      | none => l := by
  unfold Link.serve
  simp only [free, noReply]
  rfl

theorem Link.serve_nothing {l : Link} (free : l.sending = none) (noReply : l.replies = [])
    (noNotice : l.notices = Notices.empty) : l.serve = l := by
  have found : l.notices.search (searchOrder l.lastServed) = none := by
    rw [Notices.search_none, noNotice]
    have nowhere : ∀ p : Fin 9, Notices.empty.occupied p = false := by decide
    exact fun p _ => Notices.takeAt_none.2 (nowhere p)
  rw [Link.serve_search free noReply, found]

/-- A transmitter that is free when a step ends has found neither a reply nor a notice. -/
theorem Link.serve_free {l : Link} (free : l.serve.sending = none) : l.serve.replies = [] ∧ l.serve.notices = Notices.empty := by
  cases sending : l.sending with
  | some f =>
    rw [Link.serve_of_sending l (by simp [sending]), sending] at free
    cases free
  | none =>
    cases replies : l.replies with
    | cons r rest =>
      rw [Link.serve_reply sending replies] at free
      cases free
    | nil =>
      rw [Link.serve_search sending replies] at free ⊢
      split at free
      · cases free
      · rename_i found
        refine ⟨replies, Notices.eq_empty fun p => Notices.takeAt_none.1 ?_⟩
        exact (Notices.search_none _).1 found p (mem_searchOrder _ p)

theorem serve_of_search {s : State} {p : Fin 9} {bytes : List Byte} {rest : Notices} (free : s.link.sending = none)
    (noReply : s.link.replies = []) (takes : s.link.notices.takeAt p = some (bytes, rest))
    (before : ∀ q : Fin 9, (q - s.link.lastServed - 1 : Fin 9) < p - s.link.lastServed - 1 → s.link.notices.occupied q = false) :
    s.serve = { s with link := { s.link with
      sending := some ⟨false, bytes, bytes.length * 40⟩, notices := rest, lastServed := p } } := by
  have found : s.link.notices.search (searchOrder s.link.lastServed) = some (p, bytes, rest) :=
    Notices.search_of_first takes _ (mem_searchOrder _ p) fun q earlier =>
      Notices.takeAt_none.2 (before q (before_searchOrder _ p q earlier))
  unfold State.serve
  rw [Link.serve_search free noReply, found]

/-- Settles O20: the entry that `takeAt` names at the first occupied position is the one sent. -/
theorem noticesAreServedInTurn : Obligations.NoticesAreServedInTurn := by
  refine ⟨rfl, fun s p free noReply _ before => ?_⟩
  refine ⟨fun c m here entry => ?_, fun c r here none entry => ?_, fun l level here entry => ?_, fun st u here none entry => ?_⟩
  all_goals
    refine serve_of_search free noReply ?_ before
    unfold Notices.takeAt
  · simp only [channelAt_eq here, entry, MotionEnd.payload]
  · simp only [channelAt_eq here, none, entry]
  · simp only [channelAt_last here, entry]
  · simp only [channelAt_last here, none, entry]
    rfl

theorem frameEnd_eq (s : State) : exec .transmitFrameEnd s = .next s.frameEnd.serve := rfl

theorem State.frameEnd_reply {s : State} {f : Sending} {r : Reply} {rest : List Reply} (sending : s.link.sending = some f)
    (isReply : f.isReply = true) (replies : s.link.replies = r :: rest) (noReset : r.reset = none) :
    s.frameEnd = { s with link := { s.link with sending := none, replies := rest } } := by
  unfold State.frameEnd
  simp [sending, isReply, replies, noReset]

theorem State.frameEnd_notice {s : State} {f : Sending} (sending : s.link.sending = some f) (isNotice : f.isReply = false) :
    s.frameEnd = { s with link := { s.link with sending := none } } := by
  unfold State.frameEnd
  simp [sending, isNotice]

/-- The two bytes of a signed field are those of the value and of its floor over 256. -/
theorem leInt16_eq (i : Int) : leInt16 i = [BitVec.ofInt 8 i, BitVec.ofInt 8 (i / 256)] := by
  have low : byteOf (BitVec.ofInt 16 i).toNat = BitVec.ofInt 8 i := by
    apply BitVec.eq_of_toNat_eq
    simp only [byteOf, BitVec.toNat_ofNat, BitVec.toNat_ofInt]
    omega
  have high : byteOf ((BitVec.ofInt 16 i).toNat / 256) = BitVec.ofInt 8 (i / 256) := by
    apply BitVec.eq_of_toNat_eq
    simp only [byteOf, BitVec.toNat_ofNat, BitVec.toNat_ofInt]
    omega
  rw [leInt16, le16, low, high]

/-- Settles O19. -/
theorem transmitterSendsOneFrameAtATime : Obligations.TransmitterSendsOneFrameAtATime := by
  refine ⟨fun s => ⟨fun f sending => ?_, fun r rest free replies => ?_, fun free noReply noNotice => ?_⟩,
    fun s f sending => ⟨fun r rest isReply replies noReset => ?_, fun isNotice => ?_⟩,
    fun type tag payload n i => ⟨rfl, by simp [wireFrame], rfl, rfl, leInt16_eq i⟩⟩
  · rw [State.serve, Link.serve_of_sending _ (by simp [sending])]
  · rw [State.serve, Link.serve_reply free replies]
  · rw [State.serve, Link.serve_nothing free noReply noNotice]
  · rw [frameEnd_eq, State.frameEnd_reply sending isReply replies noReset]
  · rw [frameEnd_eq, State.frameEnd_notice sending isNotice]

/-! ## The receiver (R183 to R186) -/

theorem exec_byte (b : Byte) (s : State) : exec (.serialByteReceived b true) s = .next (s.receive b).serve := rfl

theorem State.receive_hunt {s : State} {b : Byte} (phase : s.link.phase = .hunt) : s.receive b =
    if b = 0x7E then { s with link := { s.link with buffer := [], phase := .length, gap := some 1000 } } else s := by
  simp [State.receive, phase, gapTime]

theorem State.receive_length {s : State} {b : Byte} (phase : s.link.phase = .length) : s.receive b =
    if b.toNat ≤ 48 then { s with link := { s.link with buffer := [b], phase := .body, gap := some 1000 } }
    else { s with link := { s.link with
      phase := .hunt, gap := none, lengthErrors := min 65535 (s.link.lengthErrors + 1) } } := by
  simp [State.receive, phase, gapTime, countUp]

theorem State.receive_body {s : State} {b n : Byte} {stored : List Byte} (phase : s.link.phase = .body)
    (buffer : s.link.buffer = n :: stored) : s.receive b = { s with link := { s.link with
      buffer := n :: stored ++ [b], phase := if stored.length + 1 = n.toNat + 2 then .check else .body
      gap := some 1000 } } := by
  have whole : stored.length + 1 + 1 = 3 + n.toNat ↔ stored.length + 1 = n.toNat + 2 := by omega
  simp [State.receive, phase, buffer, gapTime, whole]

theorem State.receive_badCrc {s : State} {b : Byte} (phase : s.link.phase = .check) (bad : b ≠ crc s.link.buffer) :
    s.receive b = { s with link := { s.link with
      phase := .hunt, gap := none, crcErrors := min 65535 (s.link.crcErrors + 1) } } := by
  simp [State.receive, phase, bad, countUp]

theorem crcByte_eq (r b : Byte) : crcByte r b = Nat.iterate crcShift 8 (r ^^^ b) := rfl

/-- The shift register read at the bit that leaves it, bit 7. -/
theorem crcShift_eq : crcShift = fun r : Byte => if r.getLsbD 7 = true then (r <<< 1) ^^^ 0x2F else r <<< 1 := by
  funext r
  rw [crcShift, BitVec.msb_eq_getLsbD_last]

/-- Settles O16. -/
theorem receiverTakesEachByteByPhase : Obligations.ReceiverTakesEachByteByPhase := by
  refine ⟨fun s b => ⟨rfl, fun phase start => ?_, fun phase noise => ?_, fun phase short => ?_, fun phase long => ?_,
      fun n stored phase buffer short => ?_, fun n stored phase buffer whole => ?_, fun phase bad => ?_⟩,
    fun s => ⟨fun runs mid => ?_, fun stopped => ?_⟩, rfl, fun bs b => ?_⟩
  · rw [exec_byte, State.receive_hunt phase, if_pos start]
  · rw [exec_byte, State.receive_hunt phase, if_neg noise]
  · rw [exec_byte, State.receive_length phase, if_pos short]
  · rw [exec_byte, State.receive_length phase, if_neg (Nat.not_le.2 long)]
  · rw [exec_byte, State.receive_body phase buffer, if_neg (Nat.ne_of_lt short)]
  · rw [exec_byte, State.receive_body phase buffer, if_pos whole]
  · rw [exec_byte, State.receive_badCrc phase bad]
  · have running : s.link.gap.isNone = false := by simpa using runs
    show done s.gapExpiry = _
    simp [State.gapExpiry, running, mid, countUp]
  · show done s.gapExpiry = _
    simp [State.gapExpiry, stopped]
  · rw [crc, List.foldl_append, List.foldl_cons, List.foldl_nil, crcByte_eq, crcShift_eq]
    rfl

/-- A frame with a good CRC is judged by the owner of its type, with the receiver back in HUNT. -/
theorem receive_goodFrame {s : State} {n type tag : Byte} {payload : List Byte} (phase : s.link.phase = .check)
    (buffer : s.link.buffer = n :: type :: tag :: payload) :
    exec (.serialByteReceived (crc s.link.buffer) true) s =
      request { s with link := { s.link with phase := .hunt, gap := none } } type tag (frameOwner type payload) := by
  rw [exec_byte, request, done]
  simp only [State.receive, phase, if_true]
  rw [buffer]
  rfl

/-- Settles O17: the owner of each type, with its payload of the right length, is that of the request. -/
theorem goodFrameActsAsItsRequest : Obligations.GoodFrameActsAsItsRequest := by
  intro s n tag phase
  dsimp only
  refine ⟨?_, ?_, ?_, ?_, ?_, ?_, ?_, ?_, ?_, ?_, ?_, ?_, ?_, ?_, ?_, ?_, ?_, ?_, ?_⟩
  case refine_12 =>
    intro c g images length buffer
    have owner : frameOwner 0x0C (c :: g :: images) = reqProfileLoad c g (imagesOf images) := by
      have fits : (c :: g :: images).length = 42 := by simp [length]
      exact if_pos fits
    rw [receive_goodFrame phase buffer, owner]
    rfl
  all_goals
    intros
    rw [receive_goodFrame phase (by assumption)]
    rfl

/-! ## Frames turned away (R186, R192) -/

/-- The payload lengths as the table of Table 11-1. -/
theorem payloadLength_eq (type : Byte) : payloadLength type =
    [(0x01, 0), (0x02, 4), (0x03, 2), (0x04, 5), (0x05, 1), (0x06, 3), (0x07, 1), (0x08, 1), (0x09, 1), (0x0A, 1),
      (0x0B, 2), (0x0C, 42), (0x0D, 6), (0x0E, 1), (0x0F, 0), (0x10, 1), (0x11, 0), (0x12, 1), (0x13, 0)].lookup type.toNat := by
  unfold payloadLength
  generalize type.toNat = n
  by_cases known : n < 20
  · interval_cases n <;> rfl
  · have above (k : Nat) (h : k < 20) : (n == k) = false := by simpa using by omega
    split
    case h_20 => simp [List.lookup, above]
    all_goals exact absurd (by decide) known

theorem payloadLength_unknown {type : Byte} (unknown : type.toNat = 0 ∨ 0x13 < type.toNat) : payloadLength type = none := by
  unfold payloadLength
  split
  case h_20 => rfl
  all_goals omega

theorem isRequest_exec {i : Instr} (h : isRequest i = true) :
    ∃ type tag owner, ∀ s : State, exec i s = request s type tag owner := by
  cases i
  case identify | configure | readParameter | move | stop | vehicleState | channelStatus | readWindow | clearConditions
      | clearFault | profileRead | profileLoad | channelRestore | channelDefaults | incidentRead | incidentRelease | lock
      | reset | deviceStatus =>
    exact ⟨_, _, _, fun _ => rfl⟩
  all_goals cases h

/-- Settles O18. -/
theorem framesTurnedAway : Obligations.FramesTurnedAway := by
  refine ⟨fun s n type tag payload hearing phase buffer => ⟨fun unknown => ?_, fun m length wrong => ?_⟩,
    fun i s requests => ⟨fun notAwaited full => ?_, fun awaited => ?_⟩⟩
  · have owner : frameOwner type payload = fun s => (answer .unknownType [], s) := by
      rw [frameOwner, payloadLength_unknown unknown]
    rw [receive_goodFrame phase buffer, owner]
    exact request_answered (s := { s with link := { s.link with phase := .hunt, gap := none } }) hearing rfl
  · have owner : frameOwner type payload = fun s => (answer .badLength [], s) := by
      rw [← payloadLength_eq] at length
      simp only [frameOwner, length, if_neg wrong]
    rw [receive_goodFrame phase buffer, owner]
    exact request_answered (s := { s with link := { s.link with phase := .hunt, gap := none } }) hearing rfl
  · obtain ⟨type, tag, owner, dispatched⟩ := isRequest_exec requests
    rw [dispatched, request_overrun _ _ _ _ notAwaited full]
    rfl
  · obtain ⟨type, tag, owner, dispatched⟩ := isRequest_exec requests
    rw [dispatched, request_awaited _ _ _ _ awaited]

/-! ## Every command completes -/

theorem State.dispatch_pending (s : State) (type tag : Byte) {owner : State → Answer × State} (acts : ActsOwner owner) :
    (s.dispatch type tag owner).pending = s.pending := by
  unfold State.dispatch
  split
  · rfl
  · split
    · rfl
    · exact (acts s).untouched.pending

theorem State.receive_pending (s : State) (b : Byte) : (s.receive b).pending = s.pending := by
  have complete (s : State) (buffer : List Byte) : (s.frameComplete buffer).pending = s.pending := by
    unfold State.frameComplete
    split
    · exact s.dispatch_pending _ _ (actsOwner_frameOwner _ _)
    · rfl
  unfold State.receive
  dsimp only
  split
  · split <;> rfl
  · split <;> rfl
  · rfl
  · split
    · rw [complete]
    · rfl

theorem State.gapExpiry_pending (s : State) : s.gapExpiry.pending = s.pending := by
  unfold State.gapExpiry
  dsimp only
  split
  · rfl
  · split <;> rfl

theorem State.takeReset_pending (s : State) (m : ResetMode) : (s.takeReset m).pending = s.pending := by
  cases m
  · exact (State.untouched_firstLineSamples _).pending
  · exact (State.untouched_firstLineSamples _).pending

theorem State.frameEnd_pending (s : State) : s.frameEnd.pending = s.pending := by
  unfold State.frameEnd
  split
  · rfl
  · dsimp only
    split
    · split
      · exact State.takeReset_pending _ _
      · rfl
    · rfl

/-- A command ends with the transmitter served, and leaves the queue alone until then. -/
def Completes (o : Host.Outcome State Fault Refusal) (s : State) : Prop := ∃ u : State, o = done u ∧ u.pending = s.pending

theorem completes_request (s : State) (type tag : Byte) {owner : State → Answer × State} (acts : ActsOwner owner) :
    Completes (request s type tag owner) s := ⟨_, rfl, s.dispatch_pending type tag acts⟩

theorem completes_done {s u : State} (acts : s.Acts u) : Completes (done u) s := ⟨u, rfl, acts.untouched.pending⟩

theorem exec_completes (i : Instr) (s : State) : Completes (exec i s) s := by
  cases i with
  | identify => exact completes_request s _ _ (actsOwner_answer _)
  | configure => exact completes_request s _ _ (actsOwner_configure _ _ _)
  | readParameter => exact completes_request s _ _ (actsOwner_readParameter _ _)
  | move => exact completes_request s _ _ (actsOwner_move _ _ _ _)
  | stop => exact completes_request s _ _ (actsOwner_stop _)
  | vehicleState => exact completes_request s _ _ (actsOwner_vehicleState _ _)
  | channelStatus => exact completes_request s _ _ (actsOwner_channelStatus _)
  | readWindow => exact completes_request s _ _ (actsOwner_readWindow _)
  | clearConditions => exact completes_request s _ _ (actsOwner_clearConditions _)
  | clearFault => exact completes_request s _ _ (actsOwner_clearFault _)
  | profileRead => exact completes_request s _ _ (actsOwner_profileRead _ _)
  | profileLoad => exact completes_request s _ _ (actsOwner_profileLoad _ _ _)
  | channelRestore => exact completes_request s _ _ (actsOwner_channelRestore _ _ _ _)
  | channelDefaults => exact completes_request s _ _ (actsOwner_channelDefaults _)
  | incidentRead => exact completes_request s _ _ (actsOwner_answer _)
  | incidentRelease => exact completes_request s _ _ (actsOwner_incidentRelease _)
  | lock => exact completes_request s _ _ actsOwner_lock
  | reset => exact completes_request s _ _ (actsOwner_reset _)
  | deviceStatus => exact completes_request s _ _ (actsOwner_answer _)
  | serialByteReceived b stopHigh =>
    refine ⟨_, rfl, ?_⟩
    split
    · exact s.receive_pending b
    · rfl
  | gapTimerExpiry => exact ⟨_, rfl, s.gapExpiry_pending⟩
  | transmitFrameEnd => exact ⟨_, rfl, s.frameEnd_pending⟩
  | powerOnReset => exact ⟨_, rfl, s.takeReset_pending .full⟩
  | count c ph => exact completes_done (s.acts_count c ph)
  | illegalTransition c => exact completes_done (s.acts_illegalTransition c)
  | intervalTimerOverflow c => exact completes_done (s.acts_intervalOverflow c)
  | stallWatchdogExpiry c => exact completes_done (s.acts_watchdogExpiry c)
  | evaluation c => exact completes_done (s.acts_evaluation c)
  | dwellExpiry c => exact completes_done (s.acts_dwellExpiry c)
  | backoffTimerExpiry c => exact completes_done (s.acts_backoffExpiry c)
  | leaseExpiry c => exact completes_done (s.acts_leaseExpiry c)
  | rampStep c => exact completes_done (State.acts_modCh (c := c) .rampStep)
  | commonModeHoldExpiry => exact completes_done (State.Act.once (.effort _))
  | roadLevelStalenessExpiry => exact completes_done s.acts_roadStale
  | supplySample mv => exact completes_done (s.acts_supplySample mv)
  | faultLineAssertion l => exact completes_done (s.acts_lineAsserts l)
  | faultLineRelease l => exact completes_done (s.acts_lineReleases l)
  | pwmPeriodBoundary c => exact completes_done (State.acts_modCh (c := c) (.pwmBoundary s.supply))

/-- Settles O3. -/
theorem everyCommandCompletes : Obligations.EveryCommandCompletes := by
  intro i s
  obtain ⟨u, outcome, pending⟩ := exec_completes i s
  exact ⟨u.serve, outcome, pending, Link.serve_free⟩

end Sys2Proof.Machine
end

section
/-! PROOFS. The step, the part's own clock, and the events of the shared timers and the drive outputs. -/

namespace Sys2Proof.Machine

/-- Settles O1. -/
theorem stepRunsFrontCommand : Obligations.StepRunsFrontCommand := fun _ _ => rfl

/-! ## One microsecond -/

theorem Decoder.sampleTick_fields (d : Decoder) (interval : Nat) : d.sampleTick interval =
    { d with histA := (d.sampleTick interval).histA, histB := (d.sampleTick interval).histB
             sampleIn := (d.sampleTick interval).sampleIn } := by
  unfold Decoder.sampleTick
  split <;> rfl

theorem Decoder.timerTick_fields (d : Decoder) (tick : Nat) : d.timerTick tick =
    { d with timer := (d.timerTick tick).timer, prescaler := (d.timerTick tick).prescaler } := by
  unfold Decoder.timerTick
  split
  · rfl
  · split
    · rfl
    · split <;> rfl

/-- The interval timer does not look at the samples. -/
theorem Decoder.timerTick_samples (d : Decoder) (histA histB : List Bool) (n tick : Nat) :
    ({ d with histA := histA, histB := histB, sampleIn := n } : Decoder).timerTick tick =
      { d with histA := histA, histB := histB, sampleIn := n
               timer := (d.timerTick tick).timer, prescaler := (d.timerTick tick).prescaler } := by
  unfold Decoder.timerTick
  dsimp only
  split
  · rfl
  · split
    · rfl
    · split <;> rfl

/-- One microsecond of a decoder: the samples, the interval timer and the watchdog, each on its own. -/
theorem Chan.tick_pd (k : Chan) :
    let sampled := k.pd.sampleTick (k.ms.active.get .filterInterval)
    let timed := k.pd.timerTick (k.ms.active.get .captureTick)
    k.tick.pd = { k.pd with
      histA := sampled.histA, histB := sampled.histB, sampleIn := sampled.sampleIn
      timer := timed.timer, prescaler := timed.prescaler, watchdog := k.pd.watchdog.map (· - 1) } := by
  intro sampled timed
  unfold Chan.tick
  dsimp only
  rw [Decoder.sampleTick_fields, Decoder.timerTick_samples]
  rfl

/-- What the microsecond does to the samplers of a channel (R19). -/
theorem Decoder.sampleTick_cases (d : Decoder) (interval : Nat) :
    (d.sampleIn ≤ 1 → (d.sampleTick interval).histA = pushLast 4 d.histA d.pinA ∧
      (d.sampleTick interval).histB = pushLast 4 d.histB d.pinB ∧ (d.sampleTick interval).sampleIn = interval) ∧
    (1 < d.sampleIn → (d.sampleTick interval).histA = d.histA ∧ (d.sampleTick interval).histB = d.histB ∧
      (d.sampleTick interval).sampleIn = d.sampleIn - 1) := by
  unfold Decoder.sampleTick
  refine ⟨fun due => ?_, fun waiting => ?_⟩
  · rw [if_pos due]
    exact ⟨rfl, rfl, rfl⟩
  · rw [if_neg (Nat.not_le.2 waiting)]
    exact ⟨rfl, rfl, rfl⟩

/-- What the microsecond does to the interval timer of a channel (R26). -/
theorem Decoder.timerTick_cases (d : Decoder) (tick : Nat) :
    (2 ≤ d.overflow → (d.timerTick tick).timer = d.timer ∧ (d.timerTick tick).prescaler = d.prescaler) ∧
    (d.overflow < 2 → d.prescaler + 1 < tick →
      (d.timerTick tick).timer = d.timer ∧ (d.timerTick tick).prescaler = d.prescaler + 1) ∧
    (d.overflow < 2 → tick ≤ d.prescaler + 1 → d.timer < 65535 →
      (d.timerTick tick).timer = d.timer + 1 ∧ (d.timerTick tick).prescaler = 0) ∧
    (d.overflow < 2 → tick ≤ d.prescaler + 1 → 65535 ≤ d.timer →
      (d.timerTick tick).timer = d.timer ∧ (d.timerTick tick).prescaler = d.prescaler + 1) := by
  unfold Decoder.timerTick
  refine ⟨fun holds => ?_, fun runs inTick => ?_, fun runs ends below => ?_, fun runs ends full => ?_⟩
  · rw [if_pos holds]
    exact ⟨rfl, rfl⟩
  · rw [if_neg (Nat.not_le.2 runs), if_pos inTick]
    exact ⟨rfl, rfl⟩
  · rw [if_neg (Nat.not_le.2 runs), if_neg (Nat.not_lt.2 ends), if_pos below]
    exact ⟨rfl, rfl⟩
  · rw [if_neg (Nat.not_le.2 runs), if_neg (Nat.not_lt.2 ends), if_neg (Nat.not_lt.2 full)]
    exact ⟨rfl, rfl⟩

/-- The microsecond of the whole part, outside the channels and the fault lines. -/
theorem State.elapse_frame (s : State) :
    s.elapse.supply = { s.supply with sampleIn := s.supply.sampleIn - 1 } ∧ s.elapse.link = s.link.tick ∧
    s.elapse.clock = s.clock.tick ∧ s.elapse.device = s.device ∧ s.elapse.effort = s.effort ∧
    s.elapse.arbiter = s.arbiter ∧ s.elapse.pool = s.pool ∧ s.elapse.races = s.races ∧ s.elapse.pending = s.pending := by
  unfold State.elapse State.linesTick
  dsimp only
  split
  · exact ⟨rfl, rfl, rfl, rfl, rfl, rfl, rfl, rfl, rfl⟩
  · exact ⟨rfl, rfl, rfl, rfl, rfl, rfl, rfl, rfl, rfl⟩

theorem State.elapse_lines (s : State) :
    (s.lineSampleIn ≤ 1 → s.elapse.lineSampleIn = 2 ∧
      ∀ l : LineId, s.elapse.lines[l] = { s.lines[l] with hist := pushLast 4 s.lines[l].hist s.lines[l].pin }) ∧
    (1 < s.lineSampleIn → s.elapse.lineSampleIn = s.lineSampleIn - 1 ∧ s.elapse.lines = s.lines) := by
  unfold State.elapse State.linesTick
  refine ⟨fun due => ?_, fun waiting => ?_⟩
  · rw [if_pos (show (s.mapCh Chan.tick).lineSampleIn ≤ 1 from due)]
    exact ⟨rfl, fun l => by simp⟩
  · rw [if_neg (show ¬(s.mapCh Chan.tick).lineSampleIn ≤ 1 from Nat.not_le.2 waiting)]
    exact ⟨rfl, rfl⟩

theorem Clock.tick_eq (k : Clock) : k.tick = if k.us < 999 then ⟨k.ms, k.us + 1⟩ else ⟨k.ms + 1, 0⟩ := by
  unfold Clock.tick
  by_cases within : k.us < 999
  · rw [if_neg (Nat.not_le.2 within), if_pos within]
  · rw [if_pos (Nat.not_lt.1 within), if_neg within]

/-! ## What the clock takes -/

theorem step_idle {s : State} (empty : s.pending = []) : step s = .next s.idleStep := by rw [step, empty]

theorem State.chooseDue_mem (s : State) {es : List Instr} (due : es ≠ []) : ∃ e ∈ es, s.chooseDue es = [e] := by
  have inside : Config.raceKey s.races 0 % es.length < es.length := Nat.mod_lt _ (List.length_pos_iff.2 due)
  refine ⟨es[Config.raceKey s.races 0 % es.length], List.getElem_mem inside, ?_⟩
  rw [State.chooseDue, List.drop_eq_getElem_cons inside]
  rfl

theorem reached_iff {now : Millis} {t : Option Millis} :
    reached now t = true ↔ ∃ e, t = some e ∧ (now - e).toNat < 2 ^ 31 := by
  cases t <;> simp [reached]

theorem phaseChanges_iff {hist : List Bool} {level : Bool} :
    phaseChanges hist level = true ↔ 3 ≤ (hist.filter (fun x => x != level)).length := by simp [phaseChanges]

theorem phaseChanges_eq_false {hist : List Bool} {level : Bool} :
    phaseChanges hist level = false ↔ ¬3 ≤ (hist.filter (fun x => x != level)).length := by
  rw [← phaseChanges_iff, Bool.not_eq_true]

/-- Which events of one channel are due. -/
theorem State.mem_due_chan (s : State) (c : ChanId) :
    let k := s.ch c
    let a := phaseChanges k.pd.histA k.pd.filtA
    let b := phaseChanges k.pd.histB k.pd.filtB
    (.count c .a ∈ s.due ↔ a = true ∧ b = false) ∧ (.count c .b ∈ s.due ↔ b = true ∧ a = false) ∧
    (.illegalTransition c ∈ s.due ↔ a = true ∧ b = true) ∧
    (.intervalTimerOverflow c ∈ s.due ↔ k.pd.overflows (k.ms.active.get .captureTick) = true) ∧
    (.stallWatchdogExpiry c ∈ s.due ↔ k.pd.watchdog = some 0) ∧
    (.dwellExpiry c ∈ s.due ↔ k.ms.state = .dwell ∧ k.ms.dwell.map DwellRecord.timer = some 0) ∧
    (.backoffTimerExpiry c ∈ s.due ↔ k.ms.state = .backoff ∧ k.ms.backoff.bind BackoffRecord.timer = some 0) ∧
    (.leaseExpiry c ∈ s.due ↔ k.ms.lease = some 0) ∧
    (.rampStep c ∈ s.due ↔ k.out.step.isSome = true ∧ k.out.stepIn = 0) ∧
    (.pwmPeriodBoundary c ∈ s.due ↔ ∃ t, k.out.pwm = some t ∧ 50 ≤ t) ∧
    (.evaluation c ∈ s.due ↔ ∃ q ∈ s.effort.requests, q.chan = c) := by
  intro k a b
  simp only [State.mem_due, Chan.mem_due, FaultLine.mem_due, Decoder.mem_dueTransition, oldestRequest_isSome]
  simp [k, a, b, and_comm]

/-- Which events of the lines and of the shared timers are due. -/
theorem State.mem_due_shared (s : State) :
    (∀ l : LineId,
      (.faultLineAssertion l ∈ s.due ↔ s.lines[l].asserted = false ∧ ∀ x ∈ s.lines[l].hist, x = true) ∧
      (.faultLineRelease l ∈ s.due ↔ s.lines[l].asserted = true ∧ ∀ x ∈ s.lines[l].hist, x = false)) ∧
    (∀ mv, .supplySample mv ∈ s.due ↔ s.supply.sampleIn = 0 ∧ mv = s.supply.pin) ∧
    (.commonModeHoldExpiry ∈ s.due ↔ reached s.clock.ms s.effort.hold = true) ∧
    (.roadLevelStalenessExpiry ∈ s.due ↔ reached s.clock.ms s.effort.staleness = true) ∧
    (.gapTimerExpiry ∈ s.due ↔ s.link.gap = some 0) ∧
    (.transmitFrameEnd ∈ s.due ↔ ∃ f, s.link.sending = some f ∧ f.left = 0) := by
  simp only [State.mem_due, Chan.mem_due, FaultLine.mem_due, Decoder.mem_dueTransition]
  refine ⟨fun l => ⟨by simp, by simp⟩, fun mv => by simp, by simp, by simp, by simp [expired], ?_⟩
  cases s.link.sending <;> simp

theorem State.due_ownEvents {s : State} {e : Instr} (due : e ∈ s.due) :
    isRequest e = false ∧ e ≠ .powerOnReset ∧ ∀ b high, e ≠ .serialByteReceived b high := by
  simp only [State.mem_due, Chan.mem_due, FaultLine.mem_due, Decoder.mem_dueTransition] at due
  cases e <;> simp [isRequest] at due ⊢

theorem Decoder.overflows_iff {d : Decoder} {tick : Nat} :
    d.overflows tick = true ↔ d.overflow < 2 ∧ 65535 ≤ d.timer ∧ tick ≤ d.prescaler := by
  simp [Decoder.overflows, and_assoc]

/-- Settles O2. -/
theorem emptyQueueStepFollowsTheClock : Obligations.EmptyQueueStepFollowsTheClock := by
  refine ⟨fun s empty => ⟨fun none => ?_, fun e one => ?_, fun several => ?_⟩, fun s => ⟨fun c => ?_, ?_⟩,
    fun s => ⟨fun c => ?_, ?_⟩⟩
  · rw [step_idle empty, State.idleStep, none]
  · rw [step_idle empty, State.idleStep, one]
  · obtain ⟨e, due, chosen⟩ := s.chooseDue_mem (es := s.due) fun none => by simp [none] at several
    refine ⟨e, due, ?_⟩
    rw [step_idle empty, State.idleStep]
    split
    · rename_i none
      simp [none] at several
    · rename_i one
      simp [one] at several
    · rw [chosen]
      rfl
  · intro k u tick
    have ticked : u = k.tick := s.ch_elapse c
    have decoder := k.tick_pd
    dsimp only at decoder
    rw [ticked, decoder]
    obtain ⟨sampled, waited⟩ := k.pd.sampleTick_cases (k.ms.active.get .filterInterval)
    obtain ⟨held, inTick, counted, full⟩ := k.pd.timerTick_cases (k.ms.active.get .captureTick)
    exact ⟨sampled, waited, held, inTick, counted, full, rfl, rfl, rfl, rfl, rfl, rfl, rfl, rfl, rfl⟩
  · obtain ⟨supply, link, clock, rest⟩ := s.elapse_frame
    obtain ⟨sampled, waited⟩ := s.elapse_lines
    refine ⟨sampled, waited, supply, link, clock.trans s.clock.tick_eq, rest⟩
  · obtain ⟨a, b, both, overflow, rest⟩ := s.mem_due_chan c
    rw [phaseChanges_iff, phaseChanges_eq_false] at a b
    rw [phaseChanges_iff, phaseChanges_iff] at both
    rw [Decoder.overflows_iff] at overflow
    exact ⟨a, b, both, overflow, rest⟩
  · obtain ⟨lines, supply, hold, staleness, gap, frame⟩ := s.mem_due_shared
    rw [reached_iff] at hold staleness
    exact ⟨lines, supply, hold, staleness, gap, frame, fun e due => State.due_ownEvents due⟩

/-! ## The shared timers and the vehicle state (R106, R110, R111) -/

/-- Settles O24. -/
theorem vehicleStateAndSharedTimers : Obligations.VehicleStateAndSharedTimers := by
  refine ⟨fun s tag level speed hearing => ?_, fun s => ⟨fun running => ?_, rfl⟩⟩
  · exact request_answered hearing (show reqVehicleState level speed s = (answer .ok _, _) from rfl)
  · show done s.roadStale = _
    rw [State.roadStale, if_pos running]
    rfl

/-! ## The ramp, the PWM period and the bridge (R40, R43, R45, R47) -/

theorem exec_rampStep (s : State) (c : ChanId) : exec (.rampStep c) s = .next (State.serve (s.setCh c (s.ch c).rampStep)) := rfl

theorem exec_pwmPeriodBoundary (s : State) (c : ChanId) :
    exec (.pwmPeriodBoundary c) s = .next (State.serve (s.setCh c ((s.ch c).pwmBoundary s.supply))) := rfl

theorem Supply.limit_eq (su : Supply) (ramp : Nat) :
    su.limit ramp = if su.state = .high then min ramp (16384000 / su.u) else ramp := by
  unfold Supply.limit
  cases su.state <;> rfl

theorem DriveOut.pwmLevel_cases (o : DriveOut) :
    ((∃ t, o.pwm = some t ∧ t * 1024 < o.applied * 50) → o.pwmLevel = .high) ∧
    ((¬∃ t, o.pwm = some t ∧ t * 1024 < o.applied * 50) → o.pwmLevel = .low) := by
  unfold DriveOut.pwmLevel
  cases o.pwm <;> simp

/-- The drive polarity read back from the pins: the closing side, then the opening side. -/
theorem Chan.bridgeSides_unswapped (k : Chan) :
    (if k.ms.active.get .drivePolarity = 1 then k.bridgeSides.2 else k.bridgeSides.1) = k.out.sides.1 ∧
    (if k.ms.active.get .drivePolarity = 1 then k.bridgeSides.1 else k.bridgeSides.2) = k.out.sides.2 := by
  unfold Chan.bridgeSides ParamSet.on
  by_cases swapped : k.ms.active.get .drivePolarity = 1
  · simp [swapped]
  · simp [swapped]

/-- Settles O58. -/
theorem rampAndPwmSteps : Obligations.RampAndPwmSteps := by
  refine ⟨fun s c => ⟨fun i running => ?_, fun idle => ?_⟩, fun s c => ⟨fun running => ?_, fun stopped => ?_⟩, fun k => ?_⟩
  · rw [exec_rampStep, Chan.rampStep, running]
    rfl
  · rw [exec_rampStep, Chan.rampStep, idle, State.setCh_ch]
  · rw [exec_pwmPeriodBoundary, Chan.pwmBoundary, if_pos running, Supply.limit_eq]
  · rw [exec_pwmPeriodBoundary, Chan.pwmBoundary, if_neg (by simp [stopped]), State.setCh_ch]
  · intro high pulsed swapped closing opening
    obtain ⟨closingSide, openingSide⟩ := k.bridgeSides_unswapped
    rw [show closing = k.out.sides.1 from closingSide, show opening = k.out.sides.2 from openingSide]
    have level : pulsed k.out.pwmLevel := k.out.pwmLevel_cases
    unfold DriveOut.sides
    refine ⟨fun mode => ?_, fun mode => ?_, fun mode => ?_, fun mode => ?_⟩
    · rw [mode]
      exact ⟨rfl, rfl⟩
    · rw [mode]
      exact ⟨rfl, rfl⟩
    · rw [mode]
      exact ⟨level, rfl⟩
    · rw [mode]
      exact ⟨rfl, level⟩

end Sys2Proof.Machine
end

section
/-! PROOFS. The resets: what they leave, and that the laws hold right after them. -/

namespace Sys2Proof.Machine

/-! ## A reset before its first fault line samples -/

/-- The part a power-on reset leaves before the fault lines are sampled. -/
def State.powerOnBase (s : State) : State :=
  { State.reset with
    chans := s.chans.map Chan.powerOn
    lines := s.lines
    supply := s.supply.firstSample
    races := s.races
    pending := s.pending }

/-- The part a PRESERVE reset leaves before the fault lines are sampled. -/
def State.preserveBase (s : State) : State :=
  { s with
    chans := s.chans.map Chan.preserve
    supply := s.supply.firstSample
    effort := .reset
    arbiter := .reset
    pool := { s.pool with free := allFree, waiting := [], lost := 0 }
    link := .reset
    clock := ⟨0, 0⟩ }

theorem State.powerOn_eq (s : State) : s.powerOn = s.powerOnBase.firstLineSamples := rfl

theorem State.preserve_eq (s : State) : s.preserve = s.preserveBase.firstLineSamples := rfl

theorem State.ch_powerOnBase (s : State) (c : ChanId) : s.powerOnBase.ch c = (s.ch c).powerOn := State.ch_of_map rfl c

theorem State.ch_preserveBase (s : State) (c : ChanId) : s.preserveBase.ch c = (s.ch c).preserve := State.ch_of_map rfl c

/-! ## The power-on reset -/

/-- Every channel is DISABLED when the first samples of a power-on reset are taken, so no line faults one. -/
theorem State.powerOn_untold (s : State) : FirstFaults s.powerOnBase s.powerOn [] ∧
    ∀ l : LineId, s.powerOn.lines[l] = ⟨s.lines[l].pin, List.replicate 4 s.lines[l].pin, s.lines[l].pin, s.lines[l].pin⟩ := by
  have disabled (c : ChanId) : (s.powerOnBase.ch c).ms.state = .disabled := by
    rw [s.ch_powerOnBase]
    rfl
  obtain ⟨told, faults, idle, _, _, _, lines, _⟩ :=
    s.powerOnBase.firstLineSamples_spec rfl (fun c => .inr (disabled c)) rfl rfl rfl
  have noneTold : told = [] := by
    refine List.eq_nil_iff_forall_not_mem.2 fun p told => ?_
    have isIdle := (idle p told).2.2
    rw [disabled] at isIdle
    cases isIdle
  exact ⟨noneTold ▸ faults, lines⟩

theorem State.ch_powerOn (s : State) (c : ChanId) : s.powerOn.ch c = (s.ch c).powerOn := by
  rw [s.powerOn_untold.1.rest c (by simp), s.ch_powerOnBase]

theorem State.powerOn_link (s : State) : s.powerOn.link = { Link.reset with notices := s.powerOn.link.notices } := by
  rw [s.powerOn_untold.1.link]
  rfl

/-- Settles O4. -/
theorem powerOnResetLeaves : Obligations.PowerOnResetLeaves := by
  refine ⟨fun s => ⟨s.powerOn.serve, rfl, ?_⟩, fun s => ⟨s.powerOn.serve, rfl, ?_⟩⟩
  · obtain ⟨untold, _⟩ := s.powerOn_untold
    have link := s.powerOn_link
    refine ⟨untold.device, ?_, untold.arbiter, untold.effort, untold.clock, untold.free, untold.waiting, untold.lost,
      ?_, ?_, ?_, ?_, ?_, ?_, ?_, ?_, fun c => ?_⟩
    case refine_10 =>
      rw [State.ch_serve, s.ch_powerOn]
      refine ⟨fun p => ParamSet.defaults_get p, fun p => ParamSet.defaults_get p, ?_⟩
      exact ⟨rfl, rfl, rfl, rfl, rfl, rfl, rfl, rfl, rfl, rfl, rfl, rfl, rfl, rfl, rfl, rfl, rfl, rfl, rfl, rfl, rfl, rfl,
        rfl, rfl, rfl, rfl, rfl, rfl, rfl, rfl, rfl, rfl, rfl, rfl⟩
    all_goals
      rw [State.serve_link, link]
      simp [Link.reset]
  · obtain ⟨untold, lines⟩ := s.powerOn_untold
    obtain ⟨_, hist, u, states⟩ := s.supply.firstSample_spec
    rw [State.serve_supply, untold.supply]
    refine ⟨hist, u, states.1, states.2.1, states.2.2.1, states.2.2.2, fun l => ?_⟩
    rw [State.serve_lines, lines l]
    exact ⟨rfl, rfl, rfl⟩

/-! ## The reset by request -/

theorem State.frameEnd_reset {s : State} {f : Sending} {r : Reply} {m : ResetMode} (sending : s.link.sending = some f)
    (isReply : f.isReply = true) (head : s.link.replies.head? = some r) (arranged : r.reset = some m) :
    s.frameEnd = State.takeReset { s with link := { s.link with sending := none, replies := s.link.replies.drop 1 } } m := by
  unfold State.frameEnd
  simp [sending, isReply, head, arranged]

theorem reset_answered {s : State} {tag mode : Byte} {a : Answer} (hearing : s.hearing) (judged : reqReset mode s = (a, s)) :
    exec (.reset tag mode) s = .next (State.serve { s with link := { s.link with
      replies := s.link.replies ++ [⟨0x92, tag, a.payload, a.reset⟩] } }) := by
  show request s 0x12 tag (reqReset mode) = _
  rw [request_hearing _ _ _ _ hearing.1 hearing.2, judged]
  rfl

/-- Settles O5. -/
theorem fullResetActsAsPowerOn : Obligations.FullResetActsAsPowerOn := by
  refine ⟨fun s f r sending isReply head arranged => ?_, fun s tag mode hearing => ⟨?_, ?_, fun above => ?_⟩⟩
  · rw [frameEnd_eq, State.frameEnd_reset sending isReply head arranged]
    rfl
  · rintro rfl
    exact reset_answered hearing (show reqReset 0 s = (⟨.ok, [0], some .full⟩, s) from rfl)
  · rintro rfl
    exact reset_answered hearing (show reqReset 1 s = (⟨.ok, [1], some .preserve⟩, s) from rfl)
  · have notFull : mode ≠ 0 := fun e => by simp [e] at above
    have notPreserve : mode ≠ 1 := fun e => by simp [e] at above
    have unknown : resetModeOf mode = none := by rw [resetModeOf, if_neg notFull, if_neg notPreserve]
    exact reset_answered hearing (a := answer .badValue [mode]) (by rw [reqReset, unknown])

/-- A channel after a PRESERVE reset: at rest, or told of a line that maps it. -/
def Chan.AfterPreserve (k u : Chan) : Prop :=
  u = k.preserve ∨ ∃ l, u = k.preserve.discardScratch.rest .fault (.bridge l)

/-- What a PRESERVE reset keeps and clears of a channel, told of a line or not. -/
theorem Chan.AfterPreserve.keeps {k u : Chan} (h : k.AfterPreserve u) :
    u.ms.pending = k.ms.pending ∧ u.ms.active = k.ms.active ∧ u.ms.reversal = k.ms.reversal ∧
    u.ms.override = k.ms.override ∧ u.pd.position = k.pd.position ∧ u.pd.travel = k.pd.travel ∧
    u.pd.histA = k.pd.histA ∧ u.pd.histB = k.pd.histB ∧ u.pd.filtA = k.pd.filtA ∧ u.pd.filtB = k.pd.filtB ∧
    u.pd.known = (k.pd.known && !k.ms.state.holding) ∧
    u.pd.timer = 0 ∧ u.pd.overflow = 0 ∧ u.pd.ring = [] ∧ u.pd.watchdog = none ∧ u.pd.confirm = 0 ∧
    u.pd.difference = 0 ∧ u.rps.cells = k.rps.cells ∧ u.rps.summary = k.rps.summary ∧
    u.rps.scratch = Vector.replicate 64 ⟨0, 0⟩ ∧ u.ms.taint = false ∧ u.out.mode = .off ∧ u.out.applied = 0 ∧
    u.out.pwm = none ∧ u.ms.motion = none ∧ u.ms.lease = none ∧ u.ms.dwell = none ∧ u.ms.backoff = none ∧
    u.ms.marker = false := by
  have moving : k.ms.state.moving = k.ms.state.holding := by cases k.ms.state <;> rfl
  have known : k.preserve.pd.known = (k.pd.known && !k.ms.state.holding) := moving ▸ rfl
  rcases h with rfl | ⟨l, rfl⟩
  · exact ⟨rfl, rfl, rfl, rfl, rfl, rfl, rfl, rfl, rfl, rfl, known, rfl, rfl, rfl, rfl, rfl, rfl, rfl, rfl, rfl, rfl, rfl, rfl,
      rfl, rfl, rfl, rfl, rfl, rfl⟩
  · exact ⟨rfl, rfl, rfl, rfl, rfl, rfl, rfl, rfl, rfl, rfl, known, rfl, rfl, rfl, rfl, rfl, rfl, rfl, rfl, rfl, rfl, rfl, rfl,
      rfl, rfl, rfl, rfl, rfl, rfl⟩

/-- What a PRESERVE reset clears at the evaluator and the outputs of a channel. -/
theorem Chan.AfterPreserve.clears {k u : Chan} (h : k.AfterPreserve u) :
    u.ee.sticky = ⟨false, false, false, false, false, false, false⟩ ∧ u.ee.lastStep = false ∧
    (∀ i : Fin 8, u.ee.slots[i] = ⟨k.ee.slots[i].value, .empty⟩) ∧ u.ee.top = 0 ∧
    u.ee.history = List.replicate 8 false ∧ u.ee.summary = ⟨none, none, none, none⟩ ∧ u.ee.lane = none ∧
    u.out = ⟨.off, 0, 0, none, 0, 0, none⟩ := by
  have emptied (i : Fin 8) : k.preserve.ee.slots[i] = ⟨k.ee.slots[i].value, .empty⟩ := by
    simp [Chan.preserve, Excess.emptyWindow]
  rcases h with rfl | ⟨l, rfl⟩
  · exact ⟨rfl, rfl, emptied, rfl, rfl, rfl, rfl, rfl⟩
  · exact ⟨rfl, rfl, emptied, rfl, rfl, rfl, rfl, rfl⟩

theorem Chan.preserve_state (k : Chan) : k.preserve.ms.state = if k.ms.state = .disabled then .disabled else .idle := rfl

theorem Chan.preserve_idle {k : Chan} : k.preserve.ms.state = .idle ↔ k.ms.state ≠ .disabled := by
  rw [Chan.preserve_state]
  split <;> simp_all

/-- A line found active at a reset maps the channel. -/
def State.struck (s : State) (c : ChanId) (l : LineId) : Bool := s.lines[l].pin && inSet s.device.maps[l] c

/-- An enabled channel that a line found active maps. -/
def State.struckBySome (s : State) (c : ChanId) : Bool :=
  decide ((s.ch c).ms.state ≠ .disabled) && allLines.any (s.struck c)

theorem State.struckBySome_iff {s : State} {c : ChanId} :
    s.struckBySome c = true ↔ (s.ch c).ms.state ≠ .disabled ∧ ∃ l, s.struck c l = true := by
  simp [State.struckBySome, mem_allLines]

/-- What the first fault line samples of a PRESERVE reset do: exactly the struck channels are told, each of a line that
strikes it. -/
structure State.PreserveTold (s : State) (told : List (ChanId × LineId)) : Prop where
  faults : FirstFaults s.preserveBase s.preserve told
  struck : ∀ p ∈ told, s.struck p.1 p.2 = true
  members : ∀ c, c ∈ told.map Prod.fst ↔ s.struckBySome c = true
  silent : (∀ l : LineId, s.lines[l].pin = false) → s.preserve.link.notices.faultLine = none
  posted : ∀ l : LineId, s.lines[l].pin = true →
    ∃ j : LineId, s.lines[j].pin = true ∧ s.preserve.link.notices.faultLine = some (j, true)
  lines : ∀ l : LineId, s.preserve.lines[l] =
    ⟨s.lines[l].pin, List.replicate 4 s.lines[l].pin, s.lines[l].pin, s.lines[l].pin⟩

theorem State.preserve_told (s : State) : ∃ told, s.PreserveTold told := by
  have atRest (c : ChanId) := s.ch_preserveBase c ▸ (s.ch c).preserve_atRest
  obtain ⟨told, faults, hit, all, silent, posted, lines, _⟩ := s.preserveBase.firstLineSamples_spec rfl atRest rfl rfl rfl
  have struck : ∀ p ∈ told, s.struck p.1 p.2 = true := by
    intro p isTold
    obtain ⟨pin, mapped, _⟩ := hit p isTold
    exact Bool.and_eq_true_iff.2 ⟨pin, mapped⟩
  refine ⟨told, faults, struck, fun c => ?_, silent, posted, lines⟩
  rw [State.struckBySome_iff]
  constructor
  · intro isTold
    obtain ⟨p, mem, rfl⟩ := List.mem_map.1 isTold
    obtain ⟨_, _, idle⟩ := hit p mem
    rw [s.ch_preserveBase, Chan.preserve_idle] at idle
    exact ⟨idle, p.2, struck p mem⟩
  · rintro ⟨enabled, l, strikes⟩
    obtain ⟨pin, mapped⟩ := Bool.and_eq_true_iff.1 strikes
    exact all l c pin mapped (s.ch_preserveBase c ▸ Chan.preserve_idle.2 enabled)

theorem State.PreserveTold.length {s : State} {told : List (ChanId × LineId)} (h : s.PreserveTold told) :
    (allChans.filter s.struckBySome).length = told.length := by
  have same : (allChans.filter s.struckBySome).Perm (told.map Prod.fst) := by
    refine (List.perm_ext_iff_of_nodup (List.Nodup.filter _ (by decide)) h.faults.nodup).2 fun c => ?_
    rw [h.members, List.mem_filter]
    exact and_iff_right (mem_allChans c)
  simpa using same.length_eq

/-- A struck channel is in FAULT by a line that strikes it. -/
theorem State.PreserveTold.ch_struck {s : State} {told : List (ChanId × LineId)} (h : s.PreserveTold told) {p : ChanId × LineId}
    (mem : p ∈ told) : s.preserve.ch p.1 = (s.ch p.1).preserve.discardScratch.rest .fault (.bridge p.2) := by
  rw [h.faults.hit p mem, s.ch_preserveBase]

theorem State.PreserveTold.ch_spared {s : State} {told : List (ChanId × LineId)} (h : s.PreserveTold told) {c : ChanId}
    (spared : s.struckBySome c = false) : s.preserve.ch c = (s.ch c).preserve := by
  rw [h.faults.rest c (by simp [h.members, spared]), s.ch_preserveBase]

theorem State.PreserveTold.exists_of_struck {s : State} {told : List (ChanId × LineId)} (h : s.PreserveTold told) {c : ChanId}
    (struck : s.struckBySome c = true) : ∃ l, (c, l) ∈ told := by
  obtain ⟨⟨d, l⟩, mem, rfl⟩ := List.mem_map.1 ((h.members c).2 struck)
  exact ⟨l, mem⟩

theorem State.preserve_ch (s : State) (c : ChanId) : (s.ch c).AfterPreserve (s.preserve.ch c) := by
  obtain ⟨told, h⟩ := s.preserve_told
  cases struck : s.struckBySome c with
  | false => exact .inl (h.ch_spared struck)
  | true =>
    obtain ⟨l, mem⟩ := h.exists_of_struck struck
    exact .inr ⟨l, h.ch_struck mem⟩

theorem State.preserve_fault_iff (s : State) (c : ChanId) :
    (s.preserve.ch c).ms.state = .fault ↔ s.struckBySome c = true := by
  obtain ⟨told, h⟩ := s.preserve_told
  cases struck : s.struckBySome c with
  | false =>
    rw [h.ch_spared struck, Chan.preserve_state]
    split <;> simp
  | true =>
    obtain ⟨l, mem⟩ := h.exists_of_struck struck
    rw [h.ch_struck mem]
    simp [Chan.rest]

/-- The record of a struck channel, and its place in the list of those told. -/
theorem State.PreserveTold.record {s : State} {told : List (ChanId × LineId)} (h : s.PreserveTold told) {c : ChanId} {l : LineId}
    (mem : (c, l) ∈ told) : ∃ r : RecId, r.val < told.length ∧ s.preserve.link.notices.incident[c] = some r ∧
      s.preserve.pool.records[r] = s.preserveBase.bridgeRecord l c := by
  obtain ⟨i, inside, at_i⟩ := List.mem_iff_getElem.1 mem
  have few := h.faults.length_le
  obtain ⟨filled, posted⟩ := h.faults.record ⟨i, by omega⟩ (c, l) (by simp [← at_i])
  exact ⟨_, inside, posted, filled⟩

theorem State.preserveBase_bridgeRecord (s : State) (l : LineId) (c : ChanId) : s.preserveBase.bridgeRecord l c =
    ⟨c, .bridge l, 0, (s.ch c).pd.position, (s.ch c).pd.known && !(s.ch c).ms.state.holding,
      zoneAt (s.ch c).ms.active (s.ch c).pd.position, (s.ch c).ms.reversal, s.supply.firstSample.u, 0, 0, false, none⟩ := by
  have known : (s.ch c).preserve.pd.known = ((s.ch c).pd.known && !(s.ch c).ms.state.holding) := by
    obtain ⟨_, _, _, _, _, _, _, _, _, _, known, _⟩ := Chan.AfterPreserve.keeps (.inl rfl : (s.ch c).AfterPreserve (s.ch c).preserve)
    exact known
  unfold State.bridgeRecord
  dsimp only
  rw [s.ch_preserveBase, known]
  rfl

theorem State.preserve_link (s : State) : s.preserve.link = ⟨.hunt, [], none, [], s.preserve.link.notices, 8, none, 0, 0, 0, 0,
    false⟩ := by
  obtain ⟨told, h⟩ := s.preserve_told
  rw [h.faults.link]
  rfl

/-- The notices of a PRESERVE reset: no motion ends and no supply change is told. -/
theorem State.preserve_notices (s : State) : (∀ c : ChanId, s.preserve.link.notices.motionEnd[c] = none) ∧
    s.preserve.link.notices.supply = none := by
  obtain ⟨told, h⟩ := s.preserve_told
  rw [h.faults.link]
  exact ⟨fun c => by simp [State.preserveBase, Link.reset, Notices.empty], rfl⟩

theorem State.PreserveTold.notice_spared {s : State} {told : List (ChanId × LineId)} (h : s.PreserveTold told) {c : ChanId}
    (spared : s.struckBySome c = false) : s.preserve.link.notices.incident[c] = none := by
  rw [h.faults.incident c (by simp [h.members, spared])]
  simp [State.preserveBase, Link.reset, Notices.empty]

theorem State.struckBySome_quiet {s : State} (quiet : ∀ l : LineId, s.lines[l].pin = false) (c : ChanId) :
    s.struckBySome c = false := by
  rw [← Bool.not_eq_true, State.struckBySome_iff]
  rintro ⟨_, l, strikes⟩
  cases (quiet l).symm.trans (Bool.and_eq_true_iff.1 strikes).1

theorem State.PreserveTold.notices_quiet {s : State} {told : List (ChanId × LineId)} (h : s.PreserveTold told)
    (quiet : ∀ l : LineId, s.lines[l].pin = false) : s.preserve.link.notices = Notices.empty := by
  obtain ⟨noEnds, noSupply⟩ := s.preserve_notices
  refine Notices.eq_empty fun p => ?_
  unfold Notices.occupied
  split
  · rename_i c _
    simp [noEnds c, h.notice_spared (State.struckBySome_quiet quiet c)]
  · simp [h.silent quiet, noSupply]

/-- The RESET reply with mode PRESERVE has been sent. -/
theorem frameEnd_preserve {s : State} {f : Sending} {r : Reply} (sending : s.link.sending = some f) (isReply : f.isReply = true)
    (head : s.link.replies.head? = some r) (arranged : r.reset = some .preserve) :
    exec .transmitFrameEnd s = .next s.preserve.serve := by
  rw [frameEnd_eq, State.frameEnd_reset sending isReply head arranged]
  rfl

theorem State.preserve_keepsChan (s : State) (c : ChanId) :
    ((s.ch c).ms.state = .disabled → (s.preserve.ch c).ms.state = .disabled ∧ (s.preserve.ch c).ms.cause = .none) ∧
    ((s.ch c).ms.state ≠ .disabled → (∀ l : LineId, s.lines[l].pin = true → inSet s.device.maps[l] c = false) →
      (s.preserve.ch c).ms.state = .idle ∧ (s.preserve.ch c).ms.cause = .none) ∧
    (∀ l : LineId, (s.ch c).ms.state ≠ .disabled → s.lines[l].pin = true → inSet s.device.maps[l] c = true →
      (s.preserve.ch c).ms.state = .fault) := by
  obtain ⟨told, h⟩ := s.preserve_told
  refine ⟨fun disabled => ?_, fun enabled unmapped => ?_, fun l enabled pin mapped => ?_⟩
  · have spared : s.struckBySome c = false := by simp [State.struckBySome, disabled]
    rw [h.ch_spared spared, Chan.preserve_state, if_pos disabled]
    exact ⟨rfl, rfl⟩
  · have spared : s.struckBySome c = false := by
      rw [← Bool.not_eq_true, State.struckBySome_iff]
      rintro ⟨_, l, strikes⟩
      obtain ⟨pin, mapped⟩ := Bool.and_eq_true_iff.1 strikes
      cases (unmapped l pin).symm.trans mapped
    rw [h.ch_spared spared, Chan.preserve_state, if_neg enabled]
    exact ⟨rfl, rfl⟩
  · exact (s.preserve_fault_iff c).2 (State.struckBySome_iff.2 ⟨enabled, l, Bool.and_eq_true_iff.2 ⟨pin, mapped⟩⟩)

/-- Settles O6. -/
theorem preserveResetKeeps : Obligations.PreserveResetKeeps := by
  refine ⟨fun s f r sending isReply head arranged => ?_, fun s f r sending isReply head arranged => ?_⟩
  · obtain ⟨told, h⟩ := s.preserve_told
    have faults := h.faults
    have link := s.preserve_link
    refine ⟨s.preserve.serve, frameEnd_preserve sending isReply head arranged, faults.device, ?_, faults.arbiter, faults.effort,
      faults.clock, faults.lost, ?_, fun c => ?_⟩
    · rw [State.serve_link, Link.serve_locked, link]
    · rw [State.serve_link, Link.serve_replies, link]
    · have keeps := (s.preserve_ch c).keeps
      have states := s.preserve_keepsChan c
      simp only [State.ch_serve]
      tauto
  · obtain ⟨told, h⟩ := s.preserve_told
    obtain ⟨pin, hist, u, states⟩ := s.supply.firstSample_spec
    obtain ⟨noEnds, noSupply⟩ := s.preserve_notices
    have supply : s.preserve.supply = s.supply.firstSample := h.faults.supply
    intro struck faulted n
    have n_eq : n = told.length := h.length
    refine ⟨s.preserve.serve, s.preserve.link.notices, frameEnd_preserve sending isReply head arranged, fun c => ?_, h.lines, ?_⟩
    · obtain ⟨sticky, lastStep, slots, top, history, summary, lane, out⟩ := (s.preserve_ch c).clears
      exact ⟨sticky, lastStep, slots, top, history, summary, lane, out, s.preserve_fault_iff c⟩
    rw [n_eq, State.serve_supply, supply]
    refine ⟨pin, hist, u, states.1, states.2.1, states.2.2.1, states.2.2.2, h.faults.free, h.faults.waiting, h.faults.blank,
      fun c strikes => ?_, fun c spared => h.notice_spared spared, noEnds, noSupply, h.posted, h.notices_quiet, ?_, fun quiet => ?_⟩
    · obtain ⟨l, mem⟩ := h.exists_of_struck strikes
      obtain ⟨r, inside, posted, filled⟩ := h.record mem
      refine ⟨r, l, inside, h.struck _ mem, ?_, posted, filled.trans (s.preserveBase_bridgeRecord l c)⟩
      rw [State.ch_serve, h.ch_struck mem]
      rfl
    · rw [State.serve_link, ← s.preserve_link]
    · rw [State.serve_link, Link.serve_nothing (by rw [s.preserve_link]) (by rw [s.preserve_link]) (h.notices_quiet quiet),
        ← s.preserve_link]

/-! ## The laws right after a reset -/

theorem State.ch_reset (c : ChanId) : State.reset.ch c = Chan.reset := by simp [State.ch, State.reset]

theorem Chan.reset_laws : Chan.reset.OutputsFollow ∧ Chan.reset.PositionLaw ∧ Chan.reset.CounterLaw ∧ Chan.reset.ParamLaw ∧
    Chan.reset.WindowLaw ∧ Chan.reset.ProfileLaw := by
  have agree : Chan.reset.ms.SetsAgree := Sequencer.SetsAgree.of_copied rfl
  refine ⟨Chan.outputsFollow_of_rest rfl ⟨rfl, rfl, rfl⟩ rfl, ?_, ?_, ?_, ?_, ?_⟩
  · exact ⟨agree, fun _ => rfl, fun known => nomatch known⟩
  · exact ⟨by decide, by decide, by decide, by decide, by decide, by decide, by decide, by decide, by decide⟩
  · exact ⟨ParamSet.defaults_ordered, ParamSet.defaults_ordered, agree⟩
  · exact ⟨fun i => by simp [Chan.reset, Excess.reset], rfl⟩
  · exact Chan.profileLaw_iff.2 ⟨blankCells_lawful, clearScratch_lawful⟩

/-- Settles O7. -/
theorem lawsHoldAtReset : Obligations.LawsHoldAtReset := by
  obtain ⟨outputs, position, counters, params, window, profile⟩ := Chan.reset_laws
  refine ⟨fun c => ?_, fun l c asserted => ?_, ?_, ⟨fun c => ?_, fun c => ?_, List.nodup_nil, ?_, List.Pairwise.nil⟩,
    fun _ => rfl, ⟨List.Perm.of_eq rfl, by decide⟩, Link.reset_lawful, rfl, rfl, fun c => ?_⟩
  · rw [State.ch_reset]
    exact outputs
  · simp [State.reset, FaultLine.reset] at asserted
  · exact ⟨List.Pairwise.nil, by decide, by decide, by decide⟩
  · rw [State.ch_reset]
    exact ⟨(nomatch ·), (nomatch ·)⟩
  · rw [State.ch_reset]
    exact ⟨(nomatch ·), (nomatch ·)⟩
  · exact fun e mem => nomatch mem
  · rw [State.ch_reset]
    exact ⟨position, counters, params, window, profile, rfl, fun p => ParamSet.defaults_get p⟩

end Sys2Proof.Machine
end

section
/-! PROOFS. The requests that read the part, and those that write one channel's stores. -/

namespace Sys2Proof.Machine

/-! ## Operands -/

theorem byteOf_toNat {b : Byte} {n : Nat} (h : b.toNat = n) : byteOf n = b := by rw [← h, byteOf, BitVec.ofNat_toNat, BitVec.setWidth_eq]

theorem segOf_eq {b : Byte} {g : Fin 8} (h : b.toNat = g.val) : segOf b = some g := by simp [segOf, h]

theorem segOf_none {b : Byte} (h : 8 ≤ b.toNat) : segOf b = none := by simp [segOf, Nat.not_lt.2 h]

theorem recOf_eq {b : Byte} {r : RecId} (h : b.toNat = r.val) : recOf b = some r := by simp [recOf, h]

theorem recOf_none {b : Byte} (h : 15 < b.toNat) : recOf b = none := by rw [recOf, dif_neg (by omega)]

theorem ParamId.ofByte_none {b : Byte} (noChan : ∀ p : ChanParam, b.toNat ≠ p.row.ident) (noDev : ∀ p : DevParam, b.toNat ≠ p.ident) :
    ParamId.ofByte b = none := by
  have chan : ChanParam.ofIdent b.toNat = none :=
    List.find?_eq_none.2 fun p _ => by simpa using (noChan p).symm
  have dev : DevParam.ofIdent b.toNat = none :=
    List.find?_eq_none.2 fun p _ => by simpa using (noDev p).symm
  rw [ParamId.ofByte, chan, dev]
  rfl

/-! ## The owners' answers -/

section Owners

variable (s : State)

theorem reqConfigure_badChannel {ident ch : Byte} {p : ChanParam} (value : Nat) (named : ident.toNat = p.row.ident)
    (bad : 8 ≤ ch.toNat) : reqConfigure ident ch value s = (answer .badChannel [ident, ch, 0, 0], s) := by
  simp only [reqConfigure, ParamId.ofByte_chan named, chanOf_none bad]
  rfl

theorem reqReadParameter_badChannel {ident ch : Byte} {p : ChanParam} (named : ident.toNat = p.row.ident)
    (bad : 8 ≤ ch.toNat) : reqReadParameter ident ch s = (answer .badChannel [ident, ch], s) := by
  simp only [reqReadParameter, ParamId.ofByte_chan named, chanOf_none bad]

theorem reqReadParameter_chan {ident ch : Byte} {p : ChanParam} {c : ChanId} (named : ident.toNat = p.row.ident)
    (chan : ch.toNat = c.val) :
    reqReadParameter ident ch s = (answer .ok ([ident, ch] ++ le16 ((s.ch c).ms.pending.get p)), s) := by
  simp only [reqReadParameter, ParamId.ofByte_chan named, chanOf_eq chan]
  rfl

theorem reqReadParameter_dev {ident : Byte} (ch : Byte) {p : DevParam} (named : ident.toNat = p.ident) :
    reqReadParameter ident ch s = (answer .ok ([ident, ch] ++ le16 (s.device.get p)), s) := by
  simp only [reqReadParameter, ParamId.ofByte_dev named]
  rfl

theorem reqReadParameter_unknown {ident : Byte} (ch : Byte) (noChan : ∀ p : ChanParam, ident.toNat ≠ p.row.ident)
    (noDev : ∀ p : DevParam, ident.toNat ≠ p.ident) : reqReadParameter ident ch s = (answer .badValue [ident, ch], s) := by
  simp only [reqReadParameter, ParamId.ofByte_none noChan noDev]

theorem reqProfileRead_ok {ch seg : Byte} {c : ChanId} {g : Fin 8} (chan : ch.toNat = c.val) (segment : seg.toNat = g.val) :
    reqProfileRead ch seg s = (answer .ok ([ch, seg] ++ le16 ((s.ch c).ms.active.get .travelLength) ++
      [byteOf ((s.ch c).ms.active.get .endMode)] ++ (segmentCells (s.ch c).rps.cells g).flatMap Cell.image), s) := by
  simp only [reqProfileRead, chanOf_eq chan, segOf_eq segment]

theorem reqProfileRead_badValue {ch seg : Byte} {c : ChanId} (chan : ch.toNat = c.val) (bad : 8 ≤ seg.toNat) :
    reqProfileRead ch seg s = (answer .badValue [ch, seg], s) := by
  simp only [reqProfileRead, chanOf_eq chan, segOf_none bad]

theorem reqIncidentRelease_badValue {ident : Byte} (bad : 15 < ident.toNat) :
    reqIncidentRelease ident s = (answer .badValue [ident], s) := by
  simp only [reqIncidentRelease, recOf_none bad]

theorem reqIncidentRelease_eq {ident : Byte} {r : RecId} (named : ident.toNat = r.val) :
    reqIncidentRelease ident s = if r ∈ s.pool.waiting then (answer .ok [ident], { s with pool := s.pool.release r })
      else (answer .notPending [ident], s) := by
  simp only [reqIncidentRelease, recOf_eq named, List.contains_iff_mem]

theorem reqChannelStatus_eq {ch : Byte} {c : ChanId} (chan : ch.toNat = c.val) : reqChannelStatus ch s =
    (answer .ok ((s.ch c).statusFields c), s.setCh c { s.ch c with pd := { (s.ch c).pd with difference := 0 } }) := by
  simp only [reqChannelStatus, chanOf_eq chan]
  rfl

theorem reqReadWindow_eq {ch : Byte} {c : ChanId} (chan : ch.toNat = c.val) :
    reqReadWindow ch s = (answer .ok ((s.ch c).windowFields c), s) := by
  simp only [reqReadWindow, chanOf_eq chan]

theorem reqClearFault_eq {ch : Byte} {c : ChanId} (chan : ch.toNat = c.val) : reqClearFault ch s =
    if (s.ch c).ms.state = .fault then
      if s.faultedBy c = true then (answer .faulted [ch], s)
      else (answer .ok [ch], (s.setCh c (s.ch c).enterIdle).judgeLatchesOf c)
    else (answer .ok [ch], s) := by
  simp only [reqClearFault, chanOf_eq chan]
  rfl

theorem reqChannelRestore_eq {ch : Byte} {c : ChanId} (position travel reversal : Nat) (chan : ch.toNat = c.val) :
    reqChannelRestore ch position travel reversal s =
      if (s.ch c).ms.state = .disabled then (answer .disabled [ch], s)
      else if (s.ch c).ms.state = .idle ∨ (s.ch c).ms.state = .fault then
        let p := min position ((s.ch c).ms.active.get .travelLength)
        (answer .ok ([ch] ++ le16 p ++ le16 (min travel 65535) ++ [byteOf (min reversal 7)]),
          s.setCh c ((s.ch c).restore p (min travel 65535) (min reversal 7)))
      else (answer .busy [ch], s) := by
  simp only [reqChannelRestore, chanOf_eq chan]
  by_cases idle : (s.ch c).ms.state = .idle <;> by_cases fault : (s.ch c).ms.state = .fault <;> simp [idle, fault]

theorem reqChannelDefaults_eq {ch : Byte} {c : ChanId} (chan : ch.toNat = c.val) : reqChannelDefaults ch s =
    if s.link.locked = true then (answer .locked [ch], s)
    else if (s.ch c).ms.state = .idle ∨ (s.ch c).ms.state = .fault then
      (answer .ok [ch], s.setCh c (s.ch c).restoreDefaults)
    else (answer .busy [ch], s) := by
  simp only [reqChannelDefaults, chanOf_eq chan, Chan.atRest]
  by_cases idle : (s.ch c).ms.state = .idle <;> by_cases fault : (s.ch c).ms.state = .fault <;> simp [idle, fault]

end Owners

/-! ## Refusals of a bad channel, and LOCK -/

/-- Settles O26. -/
theorem badChannelIsRefused : Obligations.BadChannelIsRefused := by
  intro s tag ch hearing bad
  refine ⟨fun p ident value named => ⟨?_, ?_⟩, ?_, ?_, ?_, ?_, fun seg => ?_, fun seg cells length => ?_, fun p t r => ?_, ?_⟩
  · exact request_answered hearing (reqConfigure_badChannel s _ named bad)
  · exact request_answered hearing (reqReadParameter_badChannel s named bad)
  · exact request_answered hearing (show reqChannelStatus ch s = (answer .badChannel [ch], s) by
      simp only [reqChannelStatus, chanOf_none bad])
  · exact request_answered hearing (show reqReadWindow ch s = (answer .badChannel [ch], s) by
      simp only [reqReadWindow, chanOf_none bad])
  · exact request_answered hearing (show reqClearConditions ch s = (answer .badChannel [ch], s) by
      simp only [reqClearConditions, chanOf_none bad])
  · exact request_answered hearing (show reqClearFault ch s = (answer .badChannel [ch], s) by
      simp only [reqClearFault, chanOf_none bad])
  · exact request_answered hearing (show reqProfileRead ch seg s = (answer .badChannel [ch, seg], s) by
      simp only [reqProfileRead, chanOf_none bad])
  · exact request_answered hearing (show reqProfileLoad ch seg cells s = (answer .badChannel [ch, seg], s) by
      simp [reqProfileLoad, chanOf_none bad, length])
  · exact request_answered hearing (show reqChannelRestore ch p.toNat t.toNat r.toNat s = (answer .badChannel [ch], s) by
      simp only [reqChannelRestore, chanOf_none bad])
  · exact request_answered hearing (show reqChannelDefaults ch s = (answer .badChannel [ch], s) by
      simp only [reqChannelDefaults, chanOf_none bad])

/-- Settles O34. -/
theorem readParameterReturnsTheValue : Obligations.ReadParameterReturnsTheValue := by
  intro s tag ident ch hearing
  refine ⟨fun noChan noDev => ?_, fun p c named chan => ?_, fun p named => ?_⟩
  · exact request_answered hearing (reqReadParameter_unknown s ch noChan noDev)
  · exact request_answered hearing (reqReadParameter_chan s named chan)
  · exact request_answered hearing (reqReadParameter_dev s ch named)

/-! ## Cell images and PROFILE_LOAD -/

/-- The checks of PROFILE_LOAD in order, and its effect (R133, R134). -/
theorem reqProfileLoad_eq (s : State) {ch seg : Byte} {images : List CellImage} {c : ChanId} {g : Fin 8}
    (chan : ch.toNat = c.val) (segment : seg.toNat = g.val) (eight : images.length = 8) :
    reqProfileLoad ch seg images s =
      if ¬∀ i ∈ images, i.stateCode = 0 ∨ i.stateCode = 1 then (answer .badValue [ch, seg], s)
      else if s.link.locked = true then (answer .locked [ch, seg], s)
      else if (s.ch c).ms.state = .idle ∨ (s.ch c).ms.state = .disabled ∨ (s.ch c).ms.state = .fault then
        (answer .ok ([ch, seg] ++ (images.map CellImage.taken).flatMap Cell.image), s.setCh c { s.ch c with
          rps := { (s.ch c).rps with cells := loadSegment (s.ch c).rps.cells g (images.map CellImage.taken) } })
      else (answer .busy [ch, seg], s) := by
  have admitted : (images.all CellImage.admitted = true) = ∀ i ∈ images, i.stateCode = 0 ∨ i.stateCode = 1 := by
    simp [CellImage.admitted]
  have loadable : ((s.ch c).loadable = true) =
      ((s.ch c).ms.state = .idle ∨ (s.ch c).ms.state = .disabled ∨ (s.ch c).ms.state = .fault) := by
    simp [Chan.loadable, or_assoc]
  unfold reqProfileLoad
  rw [if_neg (by simp [eight]), chanOf_eq chan]
  dsimp only
  rw [segOf_eq segment]
  dsimp only
  simp only [← admitted, ← loadable]
  cases images.all CellImage.admitted <;> cases (s.ch c).loadable <;> rfl

theorem reqProfileLoad_badSegment (s : State) {ch seg : Byte} {images : List CellImage} {c : ChanId}
    (chan : ch.toNat = c.val) (bad : 8 ≤ seg.toNat) (eight : images.length = 8) :
    reqProfileLoad ch seg images s = (answer .badValue [ch, seg], s) := by
  unfold reqProfileLoad
  rw [if_neg (by simp [eight]), chanOf_eq chan]
  dsimp only
  rw [segOf_none bad]

theorem CellImage.taken_eq (i : CellImage) : CellImage.taken i = if i.stateCode = 1 then
    ⟨.valid, max 1 i.reference.toNat, max 1 (min i.count.toNat 255), min 2 i.strikes.toNat⟩ else ⟨.empty, 0, 0, 0⟩ := by
  have wide : min i.reference.toNat 65535 = i.reference.toNat := Nat.min_eq_left (by omega)
  simp only [CellImage.taken, clampNat, wide, Cell.blank]

theorem loadSegment_other (cells : Vector Cell 64) (g : Fin 8) (images : List Cell) {k : Fin 64} (outside : k.val / 8 ≠ g.val) :
    (loadSegment cells g images)[k] = cells[k] := by
  simp [loadSegment, outside]

theorem loadSegment_image (cells : Vector Cell 64) (g : Fin 8) {images : List CellImage} {k : Fin 64} {i : CellImage}
    (inside : k.val / 8 = g.val) (image : images[k.val % 8]? = some i) :
    (loadSegment cells g (images.map CellImage.taken))[k] = CellImage.taken i := by
  simp [loadSegment, inside, image]

/-- Settles O32. -/
theorem profileReadAndLoad : Obligations.ProfileReadAndLoad := by
  refine ⟨fun s tag ch seg c hearing chan => ⟨fun bad => ?_, fun g segment => ?_⟩,
    fun s tag ch seg images c hearing chan eight => ?_⟩
  · exact request_answered hearing (reqProfileRead_badValue s chan bad)
  · rw [← List.flatMap_map (f := fun i : Fin 8 => (s.ch c).rps.cells[8 * g.val + i.val]) (g := Cell.image)]
    exact request_answered hearing (reqProfileRead_ok s chan segment)
  · intro known resting refused taken
    have taken_eq : taken = CellImage.taken := funext fun i => (CellImage.taken_eq i).symm
    refine ⟨fun bad => ?_, fun inside unknown => ?_, fun inside isKnown locked => ?_, fun inside isKnown unlocked moving => ?_,
      fun inside isKnown unlocked rests => ?_⟩
    · exact request_answered hearing (reqProfileLoad_badSegment s chan bad eight)
    all_goals
      have owner := reqProfileLoad_eq s (g := ⟨seg.toNat, inside⟩) chan rfl eight
    · rw [if_pos unknown] at owner
      exact request_answered hearing owner
    · rw [if_neg (not_not.2 isKnown), if_pos locked] at owner
      exact request_answered hearing owner
    · rw [if_neg (not_not.2 isKnown), if_neg (by simp [unlocked]), if_neg moving] at owner
      exact request_answered hearing owner
    · rw [if_neg (not_not.2 isKnown), if_neg (by simp [unlocked]), if_pos rests] at owner
      refine ⟨loadSegment (s.ch c).rps.cells ⟨seg.toNat, inside⟩ (images.map CellImage.taken),
        fun k outside => loadSegment_other _ _ _ outside, fun k i within image => ?_, ?_⟩
      · rw [taken_eq]
        exact loadSegment_image _ ⟨seg.toNat, inside⟩ within image
      · rw [taken_eq, ← List.flatMap_map (f := CellImage.taken) (g := Cell.image)]
        exact request_answered hearing owner

/-- Settles O23. -/
theorem lockProtects : Obligations.LockProtects := by
  refine fun s tag hearing => ⟨request_answered hearing (show reqLock s = (answer .ok [], _) from rfl), fun locked c ch chan => ?_⟩
  refine ⟨fun p ident value named safety admitted => ?_, fun p ident value named => ?_, ?_, fun seg cells inside eight known => ?_⟩
  · exact configure_chan_refused hearing named chan (st := .locked) (by simp [State.judgeChan, admitted, locked, safety])
  · exact configure_dev_refused hearing named (st := .locked) (by simp [State.judgeDev, locked])
  · have owner := reqChannelDefaults_eq s chan
    rw [if_pos locked] at owner
    exact request_answered hearing owner
  · have owner := reqProfileLoad_eq s (g := ⟨seg.toNat, inside⟩) chan rfl eight
    rw [if_neg (not_not.2 known), if_pos locked] at owner
    exact request_answered hearing owner

/-! ## CHANNEL_RESTORE and CHANNEL_DEFAULTS -/

/-- The pending set after CHANNEL_DEFAULTS, parameter by parameter (R161). -/
theorem ParamSet.restoreDefaults_get (ps : ParamSet) (p : ChanParam) : ps.restoreDefaults.get p =
    if p = .zPinch then min 320 (ps.get .travelLength)
    else if p = .enable ∨ p = .endMode ∨ p = .travelLength then ps.get p else p.row.default := by
  unfold ParamSet.restoreDefaults
  simp only [ParamSet.get_set, ParamSet.defaults_get]
  cases p <;> simp [ChanParam.row]

/-- Settles O33. -/
theorem channelRestoreAndDefaults : Obligations.ChannelRestoreAndDefaults := by
  refine ⟨fun s tag ch position travel reversal c hearing chan => ?_, fun s tag ch c hearing chan unlocked => ?_⟩
  · intro k refused
    have owner := reqChannelRestore_eq s position.toNat travel.toNat reversal.toNat chan
    refine ⟨fun disabled => ?_, fun enabled notIdle notFault => ?_, fun rests => ?_⟩
    · rw [if_pos disabled] at owner
      exact request_answered hearing owner
    · rw [if_neg enabled, if_neg (not_or.2 ⟨notIdle, notFault⟩)] at owner
      exact request_answered hearing owner
    · have enabled : (s.ch c).ms.state ≠ .disabled := by rcases rests with idle | fault <;> simp_all [k]
      have whole : min travel.toNat 65535 = travel.toNat := Nat.min_eq_left (by omega)
      rw [if_neg enabled, if_pos rests, whole] at owner
      exact request_answered hearing owner
  · intro k
    have owner := reqChannelDefaults_eq s chan
    rw [if_neg (by simp [unlocked])] at owner
    refine ⟨fun notIdle notFault => ?_, fun rests => ⟨k.ms.pending.restoreDefaults, ?_⟩⟩
    · rw [if_neg (not_or.2 ⟨notIdle, notFault⟩)] at owner
      exact request_answered hearing owner
    · rw [if_pos rests] at owner
      have get := k.ms.pending.restoreDefaults_get
      refine ⟨fun p enable length mode pinch => ?_, get .enable, get .travelLength, get .endMode, get .zPinch,
        request_answered hearing owner⟩
      have plain : ¬(p = .enable ∨ p = .endMode ∨ p = .travelLength) := by
        rintro (rfl | rfl | rfl)
        · exact enable rfl
        · exact mode rfl
        · exact length rfl
      rw [get p, if_neg pinch, if_neg plain]

/-! ## CLEAR_FAULT -/

theorem State.faultedBy_eq_false {s : State} {c : ChanId} (h : ∀ l : LineId, s.lines[l].asserted = true → inSet s.device.maps[l] c = false) :
    s.faultedBy c = false := by
  rw [← Bool.not_eq_true, State.faultedBy_iff]
  rintro ⟨l, asserted, mapped⟩
  cases (h l asserted).symm.trans mapped

/-- Settles O31. -/
theorem clearFaultReturnsToIdle : Obligations.ClearFaultReturnsToIdle := by
  intro s tag ch c hearing chan
  have owner := reqClearFault_eq s chan
  refine ⟨fun sound => ?_, fun l fault asserted mapped => ?_, fun fault free => ?_⟩
  · rw [if_neg sound] at owner
    exact request_answered hearing owner
  · rw [if_pos fault, if_pos (State.faultedBy_iff.2 ⟨l, asserted, mapped⟩)] at owner
    exact request_answered hearing owner
  · rw [if_pos fault, if_neg (by simp [State.faultedBy_eq_false free])] at owner
    refine ⟨_, request_answered hearing owner, ?_⟩
    simp only [State.ch_answered, State.ch_judgeLatchesOf, State.ch_setCh_self]
    refine ⟨rfl, rfl, rfl, rfl, rfl, rfl, rfl, rfl, rfl, rfl, rfl,
      fun d other => by simp [other], ?_⟩
    simp only [State.answered_pool, State.answered_arbiter, State.answered_device, State.answered_effort, State.answered_supply,
      State.answered_clock, State.answered_replies, State.answered_notices, State.answered_lines, State.judgeLatchesOf_pool,
      State.judgeLatchesOf_arbiter, State.judgeLatchesOf_device, State.judgeLatchesOf_effort, State.judgeLatchesOf_supply,
      State.judgeLatchesOf_clock, State.judgeLatchesOf_link]
    refine ⟨rfl, rfl, rfl, rfl, rfl, rfl, rfl, rfl, fun l => ?_⟩
    obtain ⟨kept, judged⟩ := (s.setCh c (s.ch c).enterIdle).judgeLatchesOf_line c l
    refine ⟨by rw [kept]; rfl, by rw [kept]; rfl, by rw [kept]; rfl, judged.trans ?_⟩
    exact and_congr_right' (not_congr and_left_comm)

/-! ## Incident records (section 11.7) -/

/-- Eight tags, newest first, in two bytes. -/
theorem tagBytes_eight (slot : Fin 8 → Slot) : tagBytes ((List.finRange 8).map slot) =
    le16 ((slot 0).tag.code + 4 * (slot 1).tag.code + 16 * (slot 2).tag.code + 64 * (slot 3).tag.code +
      256 * (slot 4).tag.code + 1024 * (slot 5).tag.code + 4096 * (slot 6).tag.code + 16384 * (slot 7).tag.code) := by
  have order : (List.finRange 8).map slot = [slot 0, slot 1, slot 2, slot 3, slot 4, slot 5, slot 6, slot 7] := rfl
  rw [tagBytes, order]
  simp only [List.reverse_cons, List.reverse_nil, List.nil_append, List.cons_append, List.foldl_cons, List.foldl_nil]
  congr 1
  omega

theorem SlotTag.code_le (g : SlotTag) : g.code ≤ 2 := by cases g <;> decide

/-- Two bytes that are formed of four two-bit fields each. -/
theorem le16_of_tags {low high : Nat} (fits : low < 256) : le16 (low + 256 * high) = [byteOf low, byteOf high] := by
  have lowByte : byteOf (low + 256 * high) = byteOf low := by
    apply BitVec.eq_of_toNat_eq
    simp only [byteOf, BitVec.toNat_ofNat]
    omega
  have highByte : (low + 256 * high) / 256 = high := by omega
  rw [le16, lowByte, highByte]

theorem tagBytes_pair (slot : Fin 8 → Slot) : tagBytes ((List.finRange 8).map slot) =
    [byteOf ((slot 0).tag.code + 4 * (slot 1).tag.code + 16 * (slot 2).tag.code + 64 * (slot 3).tag.code),
      byteOf ((slot 4).tag.code + 4 * (slot 5).tag.code + 16 * (slot 6).tag.code + 64 * (slot 7).tag.code)] := by
  have code (j : Fin 8) := (slot j).tag.code_le
  have := code 0
  have := code 1
  have := code 2
  have := code 3
  rw [tagBytes_eight, ← le16_of_tags (by omega)]
  congr 1
  omega

theorem historyByte_eight (past : Fin 8 → Bool) : historyByte ((List.finRange 8).map past) =
    byteOf (bit (past 0) + 2 * bit (past 1) + 4 * bit (past 2) + 8 * bit (past 3) + 16 * bit (past 4) +
      32 * bit (past 5) + 64 * bit (past 6) + 128 * bit (past 7)) := by
  have order : (List.finRange 8).map past = [past 0, past 1, past 2, past 3, past 4, past 5, past 6, past 7] := rfl
  rw [historyByte, order]
  simp only [List.reverse_cons, List.reverse_nil, List.nil_append, List.cons_append, List.foldl_cons, List.foldl_nil]
  congr 1
  omega

theorem slotBytes_eight (slot : Fin 8 → Slot) : slotBytes ((List.finRange 8).map slot) =
    (List.finRange 8).flatMap (fun j => leInt16 (slot j).value) := by
  rw [slotBytes, List.flatMap_map]

/-- The bytes of a record that carries evidence. -/
theorem Incident.tail_evidence {i : Incident} {e : Evidence}
    (cause : i.cause = .pinchEffort ∨ i.cause = .pinchHard ∨ i.cause = .pinchStall ∨ i.cause = .overrideStop)
    (evidence : i.evidence = some e) : i.tail =
      e.summary.presence :: (e.summary.fields ++ slotBytes e.slots ++ tagBytes e.slots ++ [historyByte e.history]) := by
  unfold Incident.tail
  rcases cause with cause | cause | cause | cause
  all_goals
    rw [cause, evidence]
    rfl

theorem slotBytes_length (slots : List Slot) : (slotBytes slots).length = 2 * slots.length := by
  simp [slotBytes, leInt16, le16, Nat.mul_comm]

/-- Settles O25. -/
theorem incidentReadAndRelease : Obligations.IncidentReadAndRelease := by
  refine ⟨fun s tag hearing => ⟨fun none => ?_, fun r rest waiting => ?_⟩,
    fun s tag ident hearing => ⟨fun bad => ?_, fun r named => ⟨fun free => ?_, fun pending => ?_⟩⟩,
    fun i e slot past => ?_, fun _ _ => rfl, rfl, rfl⟩
  · exact request_answered hearing (show reqIncidentRead s = (answer .ok [0, byteOf s.pool.lost], s) by
      simp only [reqIncidentRead, none]
      rfl)
  · intro i
    refine request_answered hearing (st := .ok) (t := s) ?_
    simp only [reqIncidentRead, waiting, Incident.fields, List.length_cons, List.append_assoc]
    rfl
  · exact request_answered hearing (reqIncidentRelease_badValue s bad)
  · have owner := reqIncidentRelease_eq s named
    rw [if_neg free] at owner
    exact request_answered hearing owner
  · have owner := reqIncidentRelease_eq s named
    rw [if_pos pending] at owner
    exact request_answered hearing owner
  · intro tagCode m presence x tags
    have codes : tagCode = SlotTag.code := funext fun g => by cases g <;> rfl
    refine ⟨fun l cause => ?_, fun y cause => ?_, fun cause evidence slots history => ?_⟩
    · rw [Incident.tail, cause]
    · rw [Incident.tail, cause]
    · have presenceByte : m.presence = byteOf (presence + 16 * x.2) := by
        simp only [Summary.presence, presence, x, codes]
        cases m.x <;> rfl
      have fields : m.fields = [byteOf ((m.k.map Fin.val).getD 0)] ++ leInt16 x.1 ++ leInt16 (m.a.getD 0) ++
          le16 (m.teff.getD 0) := by
        simp only [Summary.fields, x]
        cases m.x <;> rfl
      rw [Incident.tail_evidence cause evidence]
      refine ⟨?_, ?_⟩
      · rw [presenceByte, fields, slots, history, slotBytes_eight, tagBytes_pair, historyByte_eight, ← codes]
        simp only [List.append_assoc, List.cons_append, List.nil_append]
        rfl
      · rw [slots]
        simp [Summary.fields, slotBytes_length, tagBytes, leInt16, le16]

/-! ## Snapshots (section 11.7) -/

theorem queueBytes_eq {q : List QueueEntry} (fits : q.length ≤ 8) : queueBytes q =
    q.map (fun e => byteOf (e.chan.val + 128 * bit e.held)) ++ List.replicate (8 - q.length) 0 := by
  rw [queueBytes, List.take_append, List.take_of_length_le (by simpa using fits), List.take_replicate, List.length_map,
    Nat.min_eq_left (Nat.sub_le 8 _)]

/-- Settles O22. -/
theorem deviceStatusSnapshot : Obligations.DeviceStatusSnapshot := by
  intro s tag hearing fits line
  have flags : lineFlags s FaultLine.asserted + 16 * lineFlags s FaultLine.latch = line 0 + line 1 + line 2 + line 3 := by
    simp [lineFlags, allLines, line]
    omega
  refine request_answered hearing (st := .ok) (t := s) ?_
  simp only [reqDeviceStatus, State.deviceFields, queueBytes_eq fits, flags, List.append_assoc, List.cons_append, List.nil_append]

/-- Settles O27. -/
theorem channelStatusSnapshot : Obligations.ChannelStatusSnapshot := by
  intro s tag ch c hearing chan k l z
  have owner := reqChannelStatus_eq s chan
  simp only [Chan.statusFields, byteOf_toNat chan, List.append_assoc, List.cons_append, List.nil_append] at owner
  refine (request_answered hearing owner).trans ?_
  simp only [List.append_assoc, List.cons_append, List.nil_append]
  rfl

theorem Excess.newestFirst_eq (e : Excess) : e.newestFirst = (List.finRange 8).map (fun i => e.slots[e.top - i]) := by
  simp [Excess.newestFirst, List.finRange]

/-- A full window counts every slot. -/
theorem Excess.windowSum_full {e : Excess} (full : e.full = true) : e.windowSum = (e.newestFirst.map Slot.value).foldl (· + ·) 0 := by
  rw [Excess.windowSum]
  congr 1
  refine List.map_congr_left fun sl mem => if_neg ?_
  simpa using List.all_eq_true.1 full sl mem

/-- Settles O29. -/
theorem readWindowSnapshot : Obligations.ReadWindowSnapshot := by
  intro s tag ch c hearing chan e slot full w
  have order : e.newestFirst = (List.finRange 8).map slot := e.newestFirst_eq
  have isFull : e.full = full := by rw [Excess.full, order, List.all_map]; rfl
  have sum : (if e.full = true then e.windowSum else 0) = if full then w else 0 := by
    rw [← isFull]
    split
    · rename_i h
      rw [Excess.windowSum_full h, order]
      simp [List.finRange, w]
    · rfl
  have average : e.average.getD 0 = if full then w.fdiv 8 else 0 := by
    rw [Excess.average, isFull]
    rw [isFull] at sum
    split
    · rename_i h
      rw [if_pos h, if_pos h] at sum
      rw [sum]
      rfl
    · rfl
  refine request_answered hearing (st := .ok) (t := s) ?_
  rw [reqReadWindow_eq s chan]
  simp only [Chan.windowFields, byteOf_toNat chan]
  rw [show (s.ch c).ee = e from rfl, sum, average, order, tagBytes_eight, slotBytes_eight, isFull]

end Sys2Proof.Machine
end

section
/-! PROOFS. The assertion and the release of a fault line, channel by channel. -/

namespace Sys2Proof.Machine

/-! ## The channels told of an assertion -/

/-- A channel an assertion has acted on: in FAULT by the line, out of slots and queue. -/
structure State.ToldOf (s u : State) (l : LineId) (d : ChanId) : Prop where
  chan : u.ch d = (s.ch d).discardScratch.rest .fault (.bridge l)
  noSlot : d ∉ u.arbiter.holders
  noEntry : d ∉ u.arbiter.queue.map QueueEntry.chan

theorem State.assertable_of_ch {s u : State} {d : ChanId} (h : u.ch d = s.ch d) : u.assertable d = s.assertable d := by
  unfold State.assertable
  rw [h]

theorem State.assertOn_of_not_assertable {s : State} {c : ChanId} (l : LineId) (rests : s.assertable c = false) :
    s.assertOn l c = s := by
  unfold State.assertable at rests
  unfold State.assertOn
  split at rests
  · rename_i h
    rw [h]
  · rename_i h
    rw [h]
  · cases rests

theorem State.assertOn_arbiter {s : State} {c : ChanId} (l : LineId) (acts : s.assertable c = true) :
    (s.assertOn l c).arbiter = (s.detach c).arbiter := by
  rw [State.assertOn_eq s l c acts]
  simp [State.detach]

theorem State.assertOn_queue_subset (s : State) (l : LineId) (c : ChanId) {d : ChanId}
    (unqueued : d ∉ s.arbiter.queue.map QueueEntry.chan) : d ∉ (s.assertOn l c).arbiter.queue.map QueueEntry.chan := by
  cases acts : s.assertable c with
  | false => rwa [State.assertOn_of_not_assertable l acts]
  | true =>
    rw [State.assertOn_arbiter l acts, State.mem_detach_queue]
    exact fun mem => unqueued mem.1

theorem State.assertOn_holders_subset (s : State) (l : LineId) (c : ChanId) {d : ChanId} (noSlot : d ∉ s.arbiter.holders) :
    d ∉ (s.assertOn l c).arbiter.holders := by
  cases acts : s.assertable c with
  | false => rwa [State.assertOn_of_not_assertable l acts]
  | true =>
    rw [State.assertOn_arbiter l acts, State.mem_detach_holders]
    exact fun mem => noSlot mem.1

/-- A channel that is not told, or rests, stands as before, and comes neither into a slot nor into the queue. -/
theorem State.assertOn_fold_untold (l : LineId) (cs : List ChanId) (s : State) (d : ChanId)
    (untold : d ∉ cs ∨ s.assertable d = false) :
    let u := cs.foldl (fun s c => s.assertOn l c) s
    u.ch d = s.ch d ∧ (d ∉ s.arbiter.holders → d ∉ u.arbiter.holders) ∧
      (d ∉ s.arbiter.queue.map QueueEntry.chan → d ∉ u.arbiter.queue.map QueueEntry.chan) := by
  induction cs generalizing s with
  | nil => exact ⟨rfl, id, id⟩
  | cons c cs ih =>
    have same : (s.assertOn l c).ch d = s.ch d := by
      by_cases here : d = c
      · have rests : s.assertable c = false := untold.elim (fun out => absurd (here ▸ List.mem_cons_self) out) (here ▸ ·)
        rw [State.assertOn_of_not_assertable l rests]
      · exact State.ch_assertOn s l c d here
    obtain ⟨chan, holders, queue⟩ := ih (s.assertOn l c)
      (untold.imp (fun out mem => out (List.mem_cons_of_mem c mem)) ((State.assertable_of_ch same).trans ·))
    exact ⟨chan.trans same, fun h => holders (s.assertOn_holders_subset l c h),
      fun h => queue (s.assertOn_queue_subset l c h)⟩

theorem State.assertOn_fold_told (l : LineId) (cs : List ChanId) (s : State) (d : ChanId) (told : d ∈ cs)
    (acts : s.assertable d = true) : s.ToldOf (cs.foldl (fun s c => s.assertOn l c) s) l d := by
  induction cs generalizing s with
  | nil => cases told
  | cons c cs ih =>
    by_cases here : d = c
    · subst here
      have chan := State.ch_assertOn_self s l d acts
      have rests : (s.assertOn l d).assertable d = false := by
        unfold State.assertable
        rw [chan]
        rfl
      have left := State.assertOn_arbiter l acts
      obtain ⟨same, holders, queue⟩ := State.assertOn_fold_untold l cs (s.assertOn l d) d (.inr rests)
      exact ⟨same.trans chan, holders (by rw [left, State.mem_detach_holders]; exact fun mem => mem.2 rfl),
        queue (by rw [left, State.mem_detach_queue]; exact fun mem => mem.2 rfl)⟩
    · have same := State.ch_assertOn s l c d here
      have later := ih (s.assertOn l c) ((List.mem_cons.1 told).resolve_left here)
        ((State.assertable_of_ch same).trans acts)
      exact ⟨later.chan.trans (by rw [same]), later.noSlot, later.noEntry⟩

/-- Every channel of the list that an assertion acts on is told. -/
theorem State.assertOnAll_told {s : State} (l : LineId) {cs : List ChanId} {d : ChanId} (mem : d ∈ cs)
    (acts : s.assertable d = true) : s.ToldOf (s.assertOnAll l cs) l d := by
  have inOrder : d ∈ s.openOrder (cs.filter s.assertable) :=
    (orderByKey_perm _ _).mem_iff.2 (List.mem_filter.2 ⟨mem, acts⟩)
  have told := State.assertOn_fold_told l _ s.countRace d inOrder acts
  unfold State.assertOnAll
  dsimp only
  split
  · obtain ⟨noSlot, noEntry⟩ := State.not_mem_grantHeads d (_ : List QueueEntry).length _ told.noSlot told.noEntry
    exact ⟨(State.ch_grantPass _ d told.noEntry).trans told.chan, noSlot, noEntry⟩
  · exact ⟨told.chan, told.noSlot, told.noEntry⟩

/-- Every other channel that does not wait for a slot stands as before. -/
theorem State.assertOnAll_untold {s : State} (l : LineId) {cs : List ChanId} {d : ChanId}
    (untold : d ∉ cs ∨ s.assertable d = false) (unqueued : d ∉ s.arbiter.queue.map QueueEntry.chan) :
    (s.assertOnAll l cs).ch d = s.ch d := by
  have outOfOrder : d ∉ s.openOrder (cs.filter s.assertable) := by
    intro mem
    obtain ⟨inList, acts⟩ := List.mem_filter.1 ((orderByKey_perm _ _).mem_iff.1 mem)
    rcases untold with out | rests
    · exact out inList
    · simp [rests] at acts
  obtain ⟨chan, -, queue⟩ := State.assertOn_fold_untold l _ s.countRace d (.inl outOfOrder)
  unfold State.assertOnAll
  dsimp only
  split
  · exact (State.ch_grantPass _ d (queue unqueued)).trans chan
  · exact chan

theorem State.assertable_eq_false {s : State} {c : ChanId} :
    s.assertable c = false ↔ (s.ch c).ms.state = .disabled ∨ (s.ch c).ms.state = .fault := by
  rw [← Bool.not_eq_true, State.assertable_iff]
  tauto

/-- What a told channel shows: at rest in FAULT, with its position and counters kept. -/
theorem State.ToldOf.shows {s u : State} {l : LineId} {d : ChanId} (h : s.ToldOf u l d) :
    (u.ch d).ms.state = .fault ∧ (u.ch d).ms.cause = .bridge l ∧ (u.ch d).out.mode = .off ∧ (u.ch d).out.applied = 0 ∧
    (u.ch d).ms.motion = none ∧ d ∉ u.arbiter.holders ∧ (u.ch d).pd.position = (s.ch d).pd.position ∧
    (u.ch d).pd.known = (s.ch d).pd.known ∧ (u.ch d).ms.reversal = (s.ch d).ms.reversal := by
  rw [h.chan]
  exact ⟨rfl, rfl, rfl, rfl, rfl, h.noSlot, rfl, rfl, rfl⟩

theorem State.assertOnAll_effort_clock (s : State) (l : LineId) (cs : List ChanId) :
    (s.assertOnAll l cs).effort = s.effort ∧ (s.assertOnAll l cs).clock = s.clock := by
  have told (cs : List ChanId) (s : State) : (cs.foldl (fun s c => s.assertOn l c) s).effort = s.effort ∧
      (cs.foldl (fun s c => s.assertOn l c) s).clock = s.clock := by
    induction cs generalizing s with
    | nil => exact ⟨rfl, rfl⟩
    | cons c cs ih =>
      obtain ⟨effort, clock⟩ := ih (s.assertOn l c)
      exact ⟨effort.trans (s.assertOn_effort l c), clock.trans (s.assertOn_clock l c)⟩
  have here := told (s.openOrder (cs.filter s.assertable)) s.countRace
  unfold State.assertOnAll
  dsimp only
  split
  · simpa using here
  · simpa using here

/-! ## The events of a line -/

/-- The part with the new level of a line noted, before its channels are told. -/
def State.lineNoted (s : State) (l : LineId) : State :=
  let u : State := { s with lines := s.lines.set l (s.lines[l].settle true) }
  { u with lines := u.lines.set l { u.lines[l] with asserted := true, latch := true } }

theorem State.lineAsserts_eq {s : State} {l : LineId} (inactive : s.lines[l].asserted = false) :
    s.lineAsserts l = ((s.lineNoted l).assertOnAll l (chansOf s.device.maps[l])).postFaultLine l true := by
  unfold State.lineAsserts
  rw [inactive]
  rfl

theorem exec_faultLineAssertion (s : State) (l : LineId) : exec (.faultLineAssertion l) s = .next (s.lineAsserts l).serve := rfl

theorem exec_faultLineRelease (s : State) (l : LineId) : exec (.faultLineRelease l) s = .next (s.lineReleases l).serve := rfl

theorem State.lineNoted_line (s : State) (l : LineId) : (s.lineNoted l).lines[l].asserted = true ∧
    (s.lineNoted l).lines[l].latch = true ∧ ∀ j : LineId, j ≠ l → (s.lineNoted l).lines[j] = s.lines[j] := by
  refine ⟨by simp [State.lineNoted], by simp [State.lineNoted], fun j other => ?_⟩
  have apart : l.val ≠ j.val := Fin.val_ne_of_ne other.symm
  simp [State.lineNoted, Vector.getElem_set_ne, apart]

theorem State.lineReleases_eq {s : State} {l : LineId} (active : s.lines[l].asserted = true) : s.lineReleases l =
    (({ s with lines := s.lines.set l { s.lines[l].settle false with asserted := false } } : State).postFaultLine l false).judgeLatch l := by
  unfold State.lineReleases
  rw [if_pos active]

theorem State.judgeLatch_line_ne (s : State) {l j : LineId} (other : j ≠ l) : (s.judgeLatch l).lines[j] = s.lines[j] := by
  have apart : l.val ≠ j.val := Fin.val_ne_of_ne other.symm
  unfold State.judgeLatch
  dsimp only
  split
  · rfl
  · simp [Vector.getElem_set_ne, apart]

theorem State.sameLink_serve {s t : State} (h : s.SameLink t) : s.SameLink t.serve := by
  obtain ⟨phase, buffer, gap, replies, locked, length, crc, timeouts, overruns⟩ := h
  simp only [State.SameLink, State.serve_link, Link.serve_phase, Link.serve_buffer, Link.serve_gap, Link.serve_replies,
    Link.serve_locked, Link.serve_lengthErrors, Link.serve_crcErrors, Link.serve_timeouts, Link.serve_overruns]
  exact ⟨phase, buffer, gap, replies, locked, length, crc, timeouts, overruns⟩

theorem FaultLine.settle_latch (f : FaultLine) (level : Bool) : (f.settle level).latch = f.latch := by
  unfold FaultLine.settle
  split <;> rfl

/-- Settles O60. -/
theorem faultLineAssertionAndRelease : Obligations.FaultLineAssertionAndRelease := by
  refine ⟨fun s l inactive => ?_, fun s l active => ?_, fun s l inactive partitioned => ?_⟩
  · obtain ⟨supply, device, lines⟩ := (s.lineNoted l).assertOnAll_frame l (chansOf s.device.maps[l])
    obtain ⟨effort, clock⟩ := (s.lineNoted l).assertOnAll_effort_clock l (chansOf s.device.maps[l])
    obtain ⟨asserted, latch, others⟩ := s.lineNoted_line l
    refine ⟨_, exec_faultLineAssertion s l, ?_⟩
    rw [State.lineAsserts_eq inactive]
    simp only [State.serve_lines, State.postFaultLine_lines, lines, State.serve_device, State.postFaultLine_device, device,
      State.serve_supply, State.postFaultLine_supply, supply, State.serve_effort, State.postFaultLine_effort, effort,
      State.serve_clock, State.postFaultLine_clock, clock, State.ch_serve, State.ch_postFaultLine]
    refine ⟨asserted, latch, others, rfl, rfl, rfl, rfl, fun c => ⟨fun mapped enabled sound => ?_, fun untold unqueued => ?_⟩⟩
    · have told : (s.lineNoted l).ToldOf _ l c :=
        State.assertOnAll_told l (mem_chansOf.2 mapped) ((State.assertable_iff s c).2 ⟨enabled, sound⟩)
      exact told.shows
    · refine State.assertOnAll_untold (s := s.lineNoted l) l ?_ unqueued
      rcases untold with unmapped | rests
      · exact .inl (by rw [mem_chansOf, unmapped]; exact Bool.false_ne_true)
      · exact .inr (State.assertable_eq_false.2 rests)
  · refine ⟨_, exec_faultLineRelease s l, ?_⟩
    rw [State.lineReleases_eq active]
    set u := ({ s with lines := s.lines.set l { s.lines[l].settle false with asserted := false } } : State).postFaultLine l false
    have released : u.lines[l] = { s.lines[l].settle false with asserted := false } := by simp [u]
    have latches (j : LineId) := u.judgeLatch_line l j
    obtain ⟨kept, judged⟩ := latches l
    simp only [State.serve_lines, State.serve_chans, State.serve_arbiter, State.serve_pool, State.serve_device,
      State.serve_supply, State.serve_effort, State.serve_clock, State.judgeLatch_chans, State.judgeLatch_arbiter,
      State.judgeLatch_pool, State.judgeLatch_device, State.judgeLatch_supply, State.judgeLatch_effort, State.judgeLatch_clock]
    refine ⟨by rw [kept, released], judged.trans ?_, fun j other => ?_, rfl, rfl, rfl, rfl, rfl, rfl, rfl, ?_, fun waits => ?_⟩
    · rw [released]
      simp only [FaultLine.settle_latch, true_and, not_forall, not_not, exists_prop]
      rfl
    · have apart : l.val ≠ j.val := Fin.val_ne_of_ne other.symm
      rw [u.judgeLatch_line_ne other]
      simp [u, Vector.getElem_set_ne, apart]
    · refine State.sameLink_serve ?_
      rw [State.SameLink, State.judgeLatch_link]
      exact ⟨rfl, rfl, rfl, rfl, rfl, rfl, rfl, rfl, rfl⟩
    · rw [State.serve_link, State.judgeLatch_link, Link.serve_notices_of_wait s waits u.link rfl rfl]
      rfl
  · intro acted
    obtain ⟨records, notices, _, supply, sending, replies⟩ :=
      (s.lineNoted l).assertOnAll_records l s.device.maps[l] partitioned
    refine ⟨_, exec_faultLineAssertion s l, ?_, fun waits => ?_⟩
    · rw [State.lineAsserts_eq inactive]
      exact records
    · have kept : (s.lineAsserts l).serve.link.notices = (s.lineAsserts l).link.notices := by
        rw [State.serve_link]
        refine Link.serve_notices_of_wait s waits _ ?_ ?_
        · rw [State.lineAsserts_eq inactive]
          exact sending
        · rw [State.lineAsserts_eq inactive]
          exact replies
      rw [State.BridgeNoticesPosted, kept, State.serve_pool, State.lineAsserts_eq inactive]
      exact ⟨notices, rfl, supply⟩

end Sys2Proof.Machine
end

section
/-! PROOFS. CONFIGURE: its refusals in order, and what an accepted one stores. -/

namespace Sys2Proof.Machine

/-! ## The checks -/

theorem reqConfigure_unknown (s : State) {ident : Byte} (ch : Byte) (value : Nat)
    (noChan : ∀ p : ChanParam, ident.toNat ≠ p.row.ident) (noDev : ∀ p : DevParam, ident.toNat ≠ p.ident) :
    reqConfigure ident ch value s = (answer .badValue ([ident, ch] ++ le16 0), s) := by
  simp only [reqConfigure, ParamId.ofByte_none noChan noDev]
  rfl

theorem State.judgeChan_badValue {s : State} {c : ChanId} {p : ChanParam} {v : Nat} (bad : p.row.range.admits v = false) :
    s.judgeChan c p v = some .badValue := by
  simp [State.judgeChan, bad]

theorem State.judgeChan_locked {s : State} {c : ChanId} {p : ChanParam} {v : Nat} (admitted : p.row.range.admits v = true)
    (locked : s.link.locked = true) (safety : p.row.safety = true) : s.judgeChan c p v = some .locked := by
  simp [State.judgeChan, admitted, locked, safety]

/-- Past the checks of value and lock come those of the channel's state. -/
theorem State.judgeChan_past {s : State} {c : ChanId} {p : ChanParam} {v : Nat} (admitted : p.row.range.admits v = true)
    (open_ : s.link.locked = false ∨ p.row.safety = false) : s.judgeChan c p v =
      if (s.ch c).configBusy p v = true then some .busy
      else if p = .enable ∧ v = 1 ∧ (s.ch c).ms.state = .disabled ∧ s.faultedBy c = true then some .faulted else none := by
  have unlocked : (s.link.locked && p.row.safety) = false := by
    rcases open_ with open_ | open_ <;> simp [open_]
  unfold State.judgeChan
  rw [if_neg (by simp [admitted]), if_neg (by simp [unlocked])]

theorem State.judgeDev_open {s : State} (p : DevParam) (unlocked : s.link.locked = false) (free : p = .slotCount → s.arbiter.holders = []) :
    s.judgeDev p = none := by
  have notBusy : ¬(p = .slotCount ∧ (!s.arbiter.holders.isEmpty) = true) := by
    rintro ⟨isCount, held⟩
    simp [free isCount] at held
  rw [State.judgeDev, if_neg (by simp [unlocked]), if_neg notBusy]

/-- Settles O35. -/
theorem configureRefusalsInOrder : Obligations.ConfigureRefusalsInOrder := by
  intro s tag ident ch value hearing refused
  refine ⟨fun noChan noDev => ?_, fun p named bad => ?_, fun p c named chan => ?_, fun p named => ⟨fun locked => ?_,
    fun unlocked isCount held => ?_⟩⟩
  · exact request_answered hearing (reqConfigure_unknown s ch _ noChan noDev)
  · exact request_answered hearing (reqConfigure_badChannel s _ named bad)
  · intro v st
    have refuse {status : Status} (judged : s.judgeChan c p value.toNat = some status) : refused status.code v :=
      configure_chan_refused hearing named chan judged
    refine ⟨fun cs codes unlisted => ?_, fun admitted => ⟨fun locked safety => ?_, fun isOpen => ⟨fun geometry enabled => ?_,
      fun isEnable off moving => ?_, fun l isEnable on disabled asserted mapped => ?_⟩⟩⟩
    · exact refuse (State.judgeChan_badValue (by simp [codes, Range.admits, unlisted]))
    · exact refuse (State.judgeChan_locked admitted locked safety)
    all_goals have judged := State.judgeChan_past (c := c) admitted isOpen
    · have busy : (s.ch c).configBusy p value.toNat = true := by
        rcases geometry with rfl | rfl <;> simpa [Chan.configBusy] using enabled
      rw [if_pos busy] at judged
      exact refuse judged
    · have busy : (s.ch c).configBusy p value.toNat = true := by
        subst isEnable
        simp only [st] at moving
        unfold Chan.configBusy
        cases state : (s.ch c).ms.state <;> simp_all [ChState.holding]
      rw [if_pos busy] at judged
      exact refuse judged
    · have notBusy : ¬(s.ch c).configBusy p value.toNat = true := by
        subst isEnable
        simp [Chan.configBusy, on]
      rw [if_neg notBusy, if_pos ⟨isEnable, on, disabled, State.faultedBy_iff.2 ⟨l, asserted, mapped⟩⟩] at judged
      exact refuse judged
  · exact configure_dev_refused hearing named (st := .locked) (by simp [State.judgeDev, locked])
  · exact configure_dev_refused hearing named (st := .busy) (by simp [State.judgeDev, unlocked, isCount, held])

/-! ## Parameters stored -/

/-- The value taken of a parameter no other limits. -/
theorem chanTaken_plain {ps : ParamSet} {p : ChanParam} (v : Nat)
    (plain : p ≠ .persistenceCount ∧ p ≠ .zPinch ∧ p ≠ .zSeal) :
    (∀ cs, p.row.range = .codes cs → chanTaken ps p v = v) ∧
    (∀ lo hi, p.row.range = .span lo hi → chanTaken ps p v = max lo (min v hi)) := by
  obtain ⟨notCount, notPinch, notSeal⟩ := plain
  refine ⟨fun cs codes => ?_, fun lo hi span => ?_⟩
  · unfold chanTaken
    split
    · contradiction
    · contradiction
    · contradiction
    · rw [codes]
  · unfold chanTaken
    split
    · contradiction
    · contradiction
    · contradiction
    · rw [span]
      rfl

theorem ParamSet.store_plain {ps : ParamSet} {p : ChanParam} (v : Nat)
    (plain : p ≠ .persistenceDepth ∧ p ≠ .zSeal ∧ p ≠ .travelLength) : ps.store p v = ps.set p v := by
  obtain ⟨notDepth, notSeal, notLength⟩ := plain
  unfold ParamSet.store
  split
  · contradiction
  · contradiction
  · contradiction
  · rfl

theorem Chan.configBusy_plain {k : Chan} {p : ChanParam} (v : Nat)
    (plain : p ≠ .enable ∧ p ≠ .endMode ∧ p ≠ .travelLength) : k.configBusy p v = false := by
  obtain ⟨notEnable, notMode, notLength⟩ := plain
  unfold Chan.configBusy
  split
  · contradiction
  · contradiction
  · contradiction
  · rfl

/-- An accepted CONFIGURE of a parameter the channel's state does not bear on: the pending set alone takes it. -/
theorem configure_plain {s : State} {tag ident ch : Byte} {value : Word16} {p : ChanParam} {c : ChanId} (hearing : s.hearing)
    (named : ident.toNat = p.row.ident) (chan : ch.toNat = c.val) (admitted : p.row.range.admits value.toNat = true)
    (isOpen : s.link.locked = false ∨ p.row.safety = false) (plain : p ≠ .enable ∧ p ≠ .endMode ∧ p ≠ .travelLength) :
    let v := chanTaken (s.ch c).ms.pending p value.toNat
    exec (.configure tag ident ch value) s = .next (State.answered
      (s.setCh c { s.ch c with ms := { (s.ch c).ms with pending := (s.ch c).ms.pending.store p v } })
      0x82 tag 0x00 ([ident, ch] ++ le16 v)) := by
  intro v
  have judged := State.judgeChan_past (c := c) admitted isOpen
  rw [if_neg (by simp [Chan.configBusy_plain _ plain]), if_neg (fun h => plain.1 h.1)] at judged
  rw [configure_chan_ok hearing named chan judged, State.writeChan_plain plain]
  rfl

/-- An accepted CONFIGURE of End mode or Travel length of a DISABLED channel: both sets take it, and the profile is
emptied. -/
theorem configure_geometry {s : State} {tag ident ch : Byte} {value : Word16} {p : ChanParam} {c : ChanId} (hearing : s.hearing)
    (named : ident.toNat = p.row.ident) (chan : ch.toNat = c.val) (admitted : p.row.range.admits value.toNat = true)
    (unlocked : s.link.locked = false) (geometry : p = .endMode ∨ p = .travelLength) (disabled : (s.ch c).ms.state = .disabled) :
    let v := chanTaken (s.ch c).ms.pending p value.toNat
    exec (.configure tag ident ch value) s = .next (State.answered
      (s.setCh c { s.ch c with
        ms := { (s.ch c).ms with
          pending := (s.ch c).ms.pending.store p v, active := (s.ch c).ms.active.store p v }
        rps := { (s.ch c).rps with cells := Vector.replicate 64 ⟨.empty, 0, 0, 0⟩ } })
      0x82 tag 0x00 ([ident, ch] ++ le16 v)) := by
  intro v
  have judged := State.judgeChan_past (c := c) admitted (.inl unlocked)
  have notBusy : ¬(s.ch c).configBusy p value.toNat = true := by
    rcases geometry with rfl | rfl <;> simp [Chan.configBusy, disabled]
  have notEnable : p ≠ .enable := by rcases geometry with rfl | rfl <;> decide
  rw [if_neg notBusy, if_neg (fun h => notEnable h.1)] at judged
  rw [configure_chan_ok hearing named chan judged]
  rcases geometry with rfl | rfl <;> rfl

theorem configure_device {s : State} {tag ident ch : Byte} {value : Word16} {p : DevParam} (hearing : s.hearing)
    (named : ident.toNat = p.ident) (unlocked : s.link.locked = false) (free : p = .slotCount → s.arbiter.holders = []) :
    exec (.configure tag ident ch value) s = .next (State.answered (s.writeDev p (p.taken value.toNat)) 0x82 tag 0x00
      ([ident, ch] ++ le16 (p.taken value.toNat))) :=
  configure_dev_ok hearing named (State.judgeDev_open p unlocked free)

theorem DevParam.taken_eq (n : Nat) : DevParam.slotCount.taken n = max 1 (min n 4) ∧
    DevParam.cmWindow.taken n = max 4 (min n 64) ∧ DevParam.holdTime.taken n = max 50 (min n 1000) ∧
    DevParam.roadStaleness.taken n = max 200 (min n 5000) := by
  exact ⟨rfl, rfl, rfl, rfl⟩

/-- Settles O36. -/
theorem configureStoresTheValue : Obligations.ConfigureStoresTheValue := by
  refine ⟨fun s tag ident ch value p c hearing named chan admitted isOpen plain => ?_,
    fun s tag ch value hearing unlocked => ⟨fun c chan disabled code => ?_, fun free => ?_, ?_, ?_, ?_⟩⟩
  · simp only [List.mem_cons, List.not_mem_nil, or_false, not_or] at plain
    obtain ⟨notEnable, notMode, notLength, notDepth, notCount, notSeal, notPinch⟩ := plain
    obtain ⟨codes, span⟩ := chanTaken_plain (ps := (s.ch c).ms.pending) value.toNat ⟨notCount, notPinch, notSeal⟩
    refine ⟨_, codes, span, ?_⟩
    rw [configure_plain hearing named chan admitted isOpen ⟨notEnable, notMode, notLength⟩,
      ParamSet.store_plain _ ⟨notDepth, notSeal, notLength⟩]
  · have admitted : ChanParam.endMode.row.range.admits value.toNat = true := by
      simp [ChanParam.row, Range.admits]
      omega
    exact configure_geometry hearing (p := .endMode) rfl chan admitted unlocked (.inl rfl) disabled
  all_goals
    obtain ⟨count, window, hold, staleness⟩ := DevParam.taken_eq value.toNat
    intro v
  · rw [configure_device hearing (p := .slotCount) rfl unlocked (fun _ => free), count]
    rfl
  · rw [configure_device hearing (p := .cmWindow) rfl unlocked (nomatch ·), window]
    rfl
  · rw [configure_device hearing (p := .holdTime) rfl unlocked (nomatch ·), hold]
    rfl
  · rw [configure_device hearing (p := .roadStaleness) rfl unlocked (nomatch ·), staleness]
    rfl

theorem ParamSet.store_travelLength (ps : ParamSet) (v : Nat) : ps.store .travelLength v =
    ((ps.set .travelLength v).set .zSeal (min (ps.get .zSeal) v)).set .zPinch (min (ps.get .zPinch) v) := by
  simp [ParamSet.store, ParamSet.lowerZones, ParamSet.get_set]

/-- Settles O38. -/
theorem dependentParametersAreAdjusted : Obligations.DependentParametersAreAdjusted := by
  intro s tag ch value c hearing chan unlocked ps stored
  have stores {ident : Byte} {p : ChanParam} {v : Nat} {qs : ParamSet} (named : ident.toNat = p.row.ident)
      (admitted : p.row.range.admits value.toNat = true) (plain : p ≠ .enable ∧ p ≠ .endMode ∧ p ≠ .travelLength)
      (taken : chanTaken ps p value.toNat = v) (adjusted : ps.store p v = qs) : stored ident v qs := by
    rw [← adjusted, ← taken]
    exact configure_plain hearing named chan admitted (.inl unlocked) plain
  refine ⟨?_, ?_, ?_, ?_, fun disabled => ?_⟩
  · exact stores (p := .persistenceCount) rfl rfl (by decide) rfl rfl
  · exact stores (p := .persistenceDepth) rfl rfl (by decide) rfl rfl
  · exact stores (p := .zPinch) rfl rfl (by decide) rfl rfl
  · exact stores (p := .zSeal) rfl rfl (by decide) (by simp [chanTaken, clampNat]) rfl
  · have configured := configure_geometry hearing (tag := tag) (ident := 0x02) (value := value) (p := .travelLength) rfl chan rfl
      unlocked (.inr rfl) disabled
    simp only [ParamSet.store_travelLength] at configured
    exact configured

/-! ## Enable -/

theorem configure_enable {s : State} {tag ch : Byte} {value : Word16} {c : ChanId} (hearing : s.hearing) (chan : ch.toNat = c.val)
    (code : value.toNat ≤ 1) (notBusy : (s.ch c).configBusy .enable value.toNat = false)
    (free : ¬(value.toNat = 1 ∧ (s.ch c).ms.state = .disabled ∧ s.faultedBy c = true)) :
    exec (.configure tag 0x00 ch value) s = .next (State.answered (s.writeEnable c value.toNat) 0x82 tag 0x00
      ([0x00, ch] ++ le16 value.toNat)) := by
  have admitted : ChanParam.enable.row.range.admits value.toNat = true := by
    simp [ChanParam.row, Range.admits]
    omega
  have judged := State.judgeChan_past (s := s) (c := c) admitted (.inr rfl)
  rw [if_neg (by simp [notBusy]), if_neg (fun h => free h.2)] at judged
  exact configure_chan_ok hearing rfl chan judged

/-- A channel enabled or disabled, and the rest of the part as it was. -/
theorem State.answered_setCh (s : State) (c : ChanId) (k : Chan) (type tag st : Byte) (fields : List Byte) :
    let t := (s.setCh c k).answered type tag st fields
    s.SameOthers t c ∧ t.arbiter = s.arbiter ∧ s.SameDevice t ∧ t.pool = s.pool :=
  ⟨s.sameOthers_setCh c k, rfl, ⟨rfl, rfl, rfl, rfl, rfl⟩, rfl⟩

theorem Chan.configBusy_enable (k : Chan) (v : Nat) (h : v ≠ 0 ∨ k.ms.state = .disabled ∨ k.ms.state = .idle ∨ k.ms.state = .fault) :
    k.configBusy .enable v = false := by
  unfold Chan.configBusy
  rcases h with on | disabled | idle | fault
  · simp [on]
  · simp [disabled]
  · simp [idle]
  · simp [fault]

/-- Settles O39. -/
theorem enableAndDisable : Obligations.EnableAndDisable := by
  refine ⟨fun s tag ch c hearing chan => ?_, fun s tag ch c hearing chan fault => ?_⟩
  · intro k
    have turnOn (free : ¬((1 : Word16).toNat = 1 ∧ k.ms.state = .disabled ∧ s.faultedBy c = true)) :=
      configure_enable (tag := tag) (value := 1) hearing chan (by decide) (Chan.configBusy_enable k 1 (.inl one_ne_zero)) free
    have turnOff (rests : k.ms.state = .disabled ∨ k.ms.state = .idle ∨ k.ms.state = .fault) :=
      configure_enable (tag := tag) (value := 0) hearing chan (by decide) (Chan.configBusy_enable k 0 (.inr rests))
        (fun h => absurd h.1 (by decide))
    refine ⟨fun disabled free => ⟨_, turnOn ?_, ?_⟩, fun idle => ⟨_, turnOff (.inr (.inl idle)), ?_⟩, fun enabled => ?_,
      fun disabled => ?_⟩
    · simp [State.faultedBy_eq_false free]
    · have written : s.writeEnable c (1 : Word16).toNat = s.setCh c k.enable := by
        unfold State.writeEnable
        rw [show (s.ch c).ms.state = .disabled from disabled]
        rfl
      rw [written]
      simp only [State.ch_answered, State.ch_setCh_self]
      have override : k.enable.ms.override = true ↔ k.ms.pending.get .reversalLimit ≤ k.ms.reversal := by
        have limit : (k.ms.pending.set .enable 1).get .reversalLimit = k.ms.pending.get .reversalLimit := by
          simp [ParamSet.get_set]
        rw [← limit]
        exact decide_eq_true_iff
      exact ⟨rfl, rfl, rfl, override, rfl, rfl, rfl, rfl, rfl, rfl, rfl, State.answered_setCh ..⟩
    · have written : s.writeEnable c (0 : Word16).toNat = s.setCh c k.disable := by
        unfold State.writeEnable
        rw [show (s.ch c).ms.state = .idle from idle]
        rfl
      rw [written]
      simp only [State.ch_answered, State.ch_setCh_self]
      exact ⟨rfl, rfl, rfl, rfl, rfl, rfl, rfl, rfl, rfl, rfl, rfl, rfl, State.answered_setCh ..⟩
    · have written : s.writeEnable c (1 : Word16).toNat = s := by
        unfold State.writeEnable
        cases state : (s.ch c).ms.state
        case disabled => exact absurd state enabled
        all_goals rfl
      have configured := turnOn (fun h => enabled h.2.1)
      rw [written] at configured
      exact configured
    · have written : s.writeEnable c (0 : Word16).toNat = s := by
        unfold State.writeEnable
        rw [show (s.ch c).ms.state = .disabled from disabled]
        rfl
      have configured := turnOff (.inl disabled)
      rw [written] at configured
      exact configured
  · intro k
    have configured := configure_enable (tag := tag) (value := 0) hearing chan (by decide)
      (Chan.configBusy_enable k 0 (.inr (.inr (.inr fault)))) (fun h => absurd h.1 (by decide))
    have written : s.writeEnable c (0 : Word16).toNat = (s.setCh c k.disable).judgeLatchesOf c := by
      unfold State.writeEnable
      rw [fault]
      rfl
    rw [written] at configured
    refine ⟨_, configured, ?_⟩
    simp only [State.ch_answered, State.ch_judgeLatchesOf, State.ch_setCh_self, State.answered_arbiter, State.answered_pool,
      State.answered_device, State.answered_supply, State.answered_effort, State.answered_clock, State.answered_notices,
      State.answered_replies, State.answered_lines, State.judgeLatchesOf_arbiter, State.judgeLatchesOf_pool,
      State.judgeLatchesOf_device, State.judgeLatchesOf_supply, State.judgeLatchesOf_effort, State.judgeLatchesOf_clock,
      State.judgeLatchesOf_link]
    refine ⟨rfl, rfl, rfl, rfl, rfl, rfl, rfl, rfl, rfl, rfl, rfl, rfl, rfl, fun d other => by simp [other], rfl, rfl, rfl, rfl,
      rfl, rfl, rfl, rfl, fun l => ?_⟩
    obtain ⟨kept, judged⟩ := (s.setCh c k.disable).judgeLatchesOf_line c l
    have others : (∀ d : ChanId, inSet s.device.maps[l] d = true → ((s.setCh c k.disable).ch d).ms.state ≠ .fault) ↔
        ∀ d : ChanId, d ≠ c → inSet s.device.maps[l] d = true → (s.ch d).ms.state ≠ .fault := by
      refine forall_congr' fun d => ?_
      by_cases here : d = c
      · subst here
        simp [Chan.disable, Chan.losePosition, Chan.rest]
      · simp [here]
    refine ⟨by rw [kept]; rfl, by rw [kept]; rfl, by rw [kept]; rfl, judged.trans ?_⟩
    rw [← others]
    exact and_congr_right' (not_congr and_left_comm)

/-! ## Fault line maps -/

/-- The part with a new map stored, before the channels it adds are told. -/
def State.mapped (s : State) (l : LineId) (m : ChanSet) : State := { s with device := s.device.put (.lineMap l) m.toNat }

theorem State.writeMap_inactive {s : State} {l : LineId} {m : ChanSet} (inactive : s.lines[l].asserted = false) :
    s.writeMap l m.toNat = (s.mapped l m).judgeLatch l := by
  unfold State.writeMap
  rw [inactive]
  rfl

theorem State.writeMap_active {s : State} {l : LineId} {m : ChanSet} (active : s.lines[l].asserted = true) :
    s.writeMap l m.toNat = ((s.mapped l m).assertOnAll l (chansOf (m &&& ~~~s.device.maps[l]))).judgeLatch l := by
  unfold State.writeMap
  dsimp only
  rw [if_pos active, chansOf_diff, Device.put_maps, if_pos rfl, BitVec.ofNat_toNat, BitVec.setWidth_eq]
  rfl

theorem mem_added {m o : ChanSet} {c : ChanId} : c ∈ chansOf (m &&& ~~~o) ↔ inSet m c = true ∧ inSet o c = false := by
  rw [← chansOf_diff, List.mem_filter, mem_chansOf, Bool.not_eq_true']

theorem State.writeMap_lines (s : State) (l : LineId) (m : ChanSet) :
    (s.writeMap l m.toNat).lines[l].asserted = s.lines[l].asserted ∧ ∀ j : LineId, j ≠ l → (s.writeMap l m.toNat).lines[j] = s.lines[j] := by
  cases asserted : s.lines[l].asserted with
  | false =>
    rw [State.writeMap_inactive asserted, State.judgeLatch_asserted]
    exact ⟨asserted, fun j other => State.judgeLatch_line_ne _ other⟩
  | true =>
    have lines := ((s.mapped l m).assertOnAll_frame l (chansOf (m &&& ~~~s.device.maps[l]))).2.2
    rw [State.writeMap_active asserted, State.judgeLatch_asserted, lines]
    refine ⟨asserted, fun j other => ?_⟩
    rw [State.judgeLatch_line_ne _ other, lines]
    rfl

theorem State.writeMap_effort_clock (s : State) (l : LineId) (m : ChanSet) :
    (s.writeMap l m.toNat).effort = s.effort ∧ (s.writeMap l m.toNat).clock = s.clock := by
  cases asserted : s.lines[l].asserted with
  | false =>
    rw [State.writeMap_inactive asserted, State.judgeLatch_effort, State.judgeLatch_clock]
    exact ⟨rfl, rfl⟩
  | true =>
    rw [State.writeMap_active asserted, State.judgeLatch_effort, State.judgeLatch_clock]
    exact (s.mapped l m).assertOnAll_effort_clock l _

theorem configure_lineMap {s : State} {tag ident ch : Byte} {value : Word16} {l : LineId} (hearing : s.hearing)
    (unlocked : s.link.locked = false) (named : ident.toNat = 0x44 + l.val) :
    let map : ChanSet := BitVec.ofNat 8 value.toNat
    exec (.configure tag ident ch value) s = .next (State.answered (s.writeMap l map.toNat) 0x82 tag 0x00
      ([ident, ch] ++ le16 map.toNat)) := by
  intro map
  have taken : (DevParam.lineMap l).taken value.toNat = map.toNat := by simp [map, DevParam.taken]
  rw [← taken]
  exact configure_device hearing (p := .lineMap l) named unlocked (nomatch ·)

theorem Device.put_lineMap (d : Device) (l : LineId) (m : ChanSet) :
    d.put (.lineMap l) m.toNat = { d with maps := d.maps.set l m } := by
  simp [Device.put]

/-- Settles O37. -/
theorem faultLineMapIsWritten : Obligations.FaultLineMapIsWritten := by
  refine ⟨fun s tag ident ch value l hearing unlocked named => ?_,
    fun s tag ident ch value l hearing unlocked named active partitioned => ?_⟩
  · intro map added
    obtain ⟨asserted, lines⟩ := s.writeMap_lines l map
    obtain ⟨effort, clock⟩ := s.writeMap_effort_clock l map
    refine ⟨_, configure_lineMap hearing unlocked named, ?_⟩
    simp only [State.answered_device, State.answered_replies, State.answered_lines, State.answered_supply, State.answered_effort,
      State.answered_clock, State.answered_chans, State.answered_arbiter, State.answered_pool, State.answered_notices,
      State.ch_answered]
    refine ⟨(s.writeMap_device l _).trans (Device.put_lineMap _ l map), ?_, asserted, lines, s.writeMap_supply l _, effort, clock,
      fun inactive => ?_, fun active => ?_⟩
    · rw [(s.untouched_writeMap l _).replies]
      rfl
    · have put_map : (s.mapped l map).device.maps[l] = map := by simp [State.mapped, Device.put]
      obtain ⟨-, judged⟩ := (s.mapped l map).judgeLatch_line l l
      rw [State.writeMap_inactive inactive]
      simp only [State.judgeLatch_chans, State.judgeLatch_arbiter, State.judgeLatch_pool, State.judgeLatch_link]
      refine ⟨rfl, rfl, rfl, rfl, judged.trans ?_⟩
      rw [put_map]
      refine and_congr_right' ?_
      have inactive' : (s.mapped l map).lines[l].asserted = false := inactive
      simp only [inactive', true_and, not_forall, not_not, exists_prop]
      rfl
    · obtain ⟨-, -, frame⟩ := (s.mapped l map).assertOnAll_frame l (chansOf (map &&& ~~~s.device.maps[l]))
      have all : s.writeMap l map.toNat =
          ((s.mapped l map).assertOnAll l (chansOf (map &&& ~~~s.device.maps[l]))).judgeLatch l :=
        State.writeMap_active active
      rw [all]
      refine ⟨?_, fun c => ⟨fun isAdded enabled sound => ?_, fun spared unqueued => ?_⟩⟩
      · obtain ⟨-, judged⟩ := State.judgeLatch_line ((s.mapped l map).assertOnAll l (chansOf (map &&& ~~~s.device.maps[l]))) l l
        rw [frame] at judged
        have active' : (s.mapped l map).lines[l].asserted = true := active
        refine Bool.eq_iff_iff.2 (judged.trans ?_)
        simp only [active', Bool.true_eq_false, false_and, and_false, not_false_eq_true, and_true]
        rfl
      · rw [State.ch_judgeLatch, State.judgeLatch_arbiter]
        have told : (s.mapped l map).ToldOf _ l c :=
          State.assertOnAll_told l (mem_added.2 isAdded) ((State.assertable_iff s c).2 ⟨enabled, sound⟩)
        exact told.shows
      · rw [State.ch_judgeLatch]
        refine State.assertOnAll_untold (s := s.mapped l map) l ?_ unqueued
        rcases spared with out | rests
        · exact .inl (fun mem => out (mem_added.1 mem))
        · exact .inr (State.assertable_eq_false.2 rests)
  · intro acted
    refine ⟨_, configure_lineMap hearing unlocked named, ?_⟩
    rw [State.writeMap_active active]
    obtain ⟨records, notices, faultLine, supply, -⟩ :=
      (s.mapped l (BitVec.ofNat 8 value.toNat)).assertOnAll_records l
        (BitVec.ofNat 8 value.toNat &&& ~~~s.device.maps[l]) partitioned
    simp only [State.BridgeRecordsTaken, State.BridgeNoticesPosted, State.answered_pool, State.answered_notices,
      State.judgeLatch_pool, State.judgeLatch_link]
    exact ⟨records, notices, faultLine, supply⟩

end Sys2Proof.Machine
end

section
/-! PROOFS. MOVE: its judgement, and what an accepted one does by the state of the channel. -/

namespace Sys2Proof.Machine

/-! ## The judgement (R140, R141) -/

theorem kindOf_none {b : Byte} (h : 3 < b.toNat) : kindOf b = none := by
  have other (x : Byte) (below : x.toNat ≤ 3) : b ≠ x := by
    rintro rfl
    omega
  unfold kindOf
  rw [if_neg (other 0 (by decide)), if_neg (other 1 (by decide)), if_neg (other 2 (by decide)), if_neg (other 3 (by decide))]

theorem dirOf_none {b : Byte} (h : 1 < b.toNat) : dirOf b = none := by
  have other (x : Byte) (below : x.toNat ≤ 1) : b ≠ x := by
    rintro rfl
    omega
  unfold dirOf
  rw [if_neg (other 0 (by decide)), if_neg (other 1 (by decide))]

theorem reqMove_badValue {s : State} {set : ChanSet} {kind dir : Byte} (target : Nat) (bad : kindOf kind = none ∨ dirOf dir = none) :
    reqMove set kind dir target s = (answer .badValue [], s) := by
  unfold reqMove
  rcases bad with bad | bad
  · rw [bad]
  · rw [bad]
    cases kindOf kind <;> rfl

theorem Chan.successor_fault_iff {k : Chan} :
    k.successor.any Successor.isFault = true ↔ ∃ x, k.successor = some (.fault x) := by
  cases k.successor with
  | none => simp
  | some x => cases x <;> simp [Successor.isFault]

theorem Chan.successor_idle_iff {k : Chan} :
    k.successor.any Successor.isIdle = true ↔ ∃ r, k.successor = some (.idle r) := by
  cases k.successor with
  | none => simp
  | some x => cases x <;> simp [Successor.isIdle]

theorem Chan.moveBusy_iff {k : Chan} {m : Motion} : k.moveBusy m = true ↔
    (∃ r, k.successor = some (.idle r)) ∨ (k.ms.motion.any Motion.normalizing = true ∧ ¬m.normalizing = true) ∨
      (m.normalizing = true ∧ (k.ms.state = .startup ∨ k.ms.state = .travel ∨ k.ms.state = .dwell) ∧
        k.ms.motion.any (fun r => !r.normalizing) = true) := by
  unfold Chan.moveBusy
  rw [← Chan.successor_idle_iff]
  simp only [Bool.or_eq_true, Bool.and_eq_true, beq_iff_eq, Bool.not_eq_true', Bool.not_eq_true, or_assoc, and_assoc]

theorem requestedMotion_normalizing (k : MoveKind) (d : Dir) (target l : Nat) :
    (requestedMotion k d target l).normalizing = true ↔ k = .normalize := by
  cases k <;> simp [requestedMotion, Motion.normalizing]

theorem requestedMotion_unattended (k : MoveKind) (d : Dir) (target l : Nat) :
    (requestedMotion k d target l).unattendedClose = true ↔ (k = .express ∨ k = .goTo) ∧ d = .closing := by
  cases k <;> cases d <;> simp [requestedMotion, Motion.unattendedClose]

theorem Chan.judgingSet_eq {k : Chan} (enabled : k.ms.state ≠ .disabled) (sound : k.ms.state ≠ .fault) :
    k.judgingSet = if k.ms.state = .idle ∨ k.ms.state = .queued then k.ms.pending else k.ms.active := by
  unfold Chan.judgingSet
  cases h : k.ms.state <;> simp_all

theorem move_refused {s : State} {tag set kind dir : Byte} {target : Word16} {k : MoveKind} {d : Dir} {c : ChanId} {st : Status}
    (hearing : s.hearing) (one : chansOf set = [c]) (isKind : kindOf kind = some k) (isDir : dirOf dir = some d)
    (judged : (s.ch c).judgeMove s.supply.state (requestedMotion k d target.toNat ((s.ch c).ms.active.get .travelLength)) = some st) :
    exec (.move tag set kind dir target) s = .next (s.answered 0x84 tag 0 ([byteOf c.val, st.code] ++
      le16 (if k = .goTo then min target.toNat ((s.ch c).ms.active.get .travelLength) else 0))) := by
  have moved := move_one (tag := tag) (target := target) hearing one isKind isDir
  simp only [State.moveOne, judged] at moved
  exact moved

theorem move_accepted {s : State} {tag set kind dir : Byte} {target : Word16} {k : MoveKind} {d : Dir} {c : ChanId}
    (hearing : s.hearing) (one : chansOf set = [c]) (isKind : kindOf kind = some k) (isDir : dirOf dir = some d)
    (judged : (s.ch c).judgeMove s.supply.state (requestedMotion k d target.toNat ((s.ch c).ms.active.get .travelLength)) = none) :
    exec (.move tag set kind dir target) s =
      .next ((s.acceptMove c (requestedMotion k d target.toNat ((s.ch c).ms.active.get .travelLength))).answered 0x84 tag 0
        ([byteOf c.val, 0x00] ++ le16 (if k = .goTo then min target.toNat ((s.ch c).ms.active.get .travelLength) else 0))) := by
  have moved := move_one (tag := tag) (target := target) hearing one isKind isDir
  simp only [State.moveOne, judged] at moved
  exact moved

/-- Settles O40. -/
theorem moveRefusalsInOrder : Obligations.MoveRefusalsInOrder := by
  refine ⟨fun s tag set kind dir target hearing => ⟨fun bad => ?_, fun k d isKind isDir => ?_⟩,
    fun s tag set kind dir target c k d hearing one isKind isDir => ?_⟩
  · exact request_answered hearing (reqMove_badValue _ (bad.imp kindOf_none dirOf_none))
  · intro asked r
    have fold : r = State.moveAll k d target.toNat (chansOf set) s :=
      (moveAll_fold k d target.toNat (chansOf set) s []).trans (by rw [List.nil_append])
    rw [fold]
    exact move_eq hearing isKind isDir
  · intro ch st normalize unattended running other judging taken p1 p2 p3 p4 p5 p6 p7 p8 refused
    have refuse {status : Status} (judged : ch.judgeMove s.supply.state
        (requestedMotion k d target.toNat (ch.ms.active.get .travelLength)) = some status) : refused status.code :=
      move_refused hearing one isKind isDir judged
    set m := requestedMotion k d target.toNat (ch.ms.active.get .travelLength)
    have fault_iff : (decide (ch.ms.state = .fault) || ch.successor.any Successor.isFault) = true ↔ p2 := by
      rw [Bool.or_eq_true, decide_eq_true_iff, Chan.successor_fault_iff]
    have busy_iff : ch.moveBusy m = true ↔ p5 := by
      rw [Chan.moveBusy_iff, requestedMotion_normalizing]
    have unattended_iff : m.unattendedClose = true ↔ unattended := requestedMotion_unattended ..
    have past (n1 : ¬p1) (n2 : ¬p2) (n3 : ¬p3) (n4 : ¬p4) : ch.judgeMove s.supply.state m =
        if ch.moveBusy m = true then some .busy
        else if m.unattendedClose = true then
          if (!ch.pd.known) = true then some .positionUnknown
          else if (!profileComplete ch.rps.cells (ch.ms.active.get .travelLength) (ch.judgingSet.get .zSeal)) = true then
            some .notNormalized
          else if ch.judgingSet.get .reversalLimit ≤ ch.ms.reversal then some .reversalLimit else none
        else none := by
      rw [Chan.judgeMove, if_neg n1, if_neg (mt fault_iff.1 n2), if_neg n3, if_neg n4]
    have judgingSet (n1 : ¬p1) (n2 : ¬p2) : ch.judgingSet = judging := Chan.judgingSet_eq n1 (fun h => n2 (.inl h))
    refine ⟨fun h1 => ?_, fun n1 h2 => ?_, fun n1 n2 h3 => ?_, fun n1 n2 n3 h4 => ?_, fun n1 n2 n3 n4 h5 => ?_,
      fun n1 n2 n3 n4 n5 h6 => ?_, fun n1 n2 n3 n4 n5 n6 h7 => ?_, fun n1 n2 n3 n4 n5 n6 n7 h8 => ?_⟩
    · exact refuse (status := .disabled) (by rw [Chan.judgeMove, if_pos h1])
    · exact refuse (status := .faulted) (by rw [Chan.judgeMove, if_neg n1, if_pos (fault_iff.2 h2)])
    · exact refuse (status := .supply) (by rw [Chan.judgeMove, if_neg n1, if_neg (mt fault_iff.1 n2), if_pos h3])
    · exact refuse (status := .reversing) (by rw [Chan.judgeMove, if_neg n1, if_neg (mt fault_iff.1 n2), if_neg n3, if_pos h4])
    · exact refuse (status := .busy) (by rw [past n1 n2 n3 n4, if_pos (busy_iff.2 h5)])
    · obtain ⟨isUnattended, unknown⟩ := h6
      exact refuse (status := .positionUnknown) (by rw [past n1 n2 n3 n4, if_neg (mt busy_iff.1 n5), if_pos (unattended_iff.2 isUnattended),
        if_pos (by simp [unknown])])
    · obtain ⟨isUnattended, incomplete⟩ := h7
      have known : ch.pd.known = true := by
        by_contra unknown
        exact n6 ⟨isUnattended, by simpa using unknown⟩
      exact refuse (status := .notNormalized) (by rw [past n1 n2 n3 n4, if_neg (mt busy_iff.1 n5), if_pos (unattended_iff.2 isUnattended),
        if_neg (by simp [known]), judgingSet n1 n2, if_pos (by simp [incomplete])])
    · obtain ⟨isUnattended, limit⟩ := h8
      have known : ch.pd.known = true := by
        by_contra unknown
        exact n6 ⟨isUnattended, by simpa using unknown⟩
      have complete : profileComplete ch.rps.cells (ch.ms.active.get .travelLength) (judging.get .zSeal) = true := by
        by_contra incomplete
        exact n7 ⟨isUnattended, by simpa using incomplete⟩
      exact refuse (status := .reversalLimit) (by rw [past n1 n2 n3 n4, if_neg (mt busy_iff.1 n5), if_pos (unattended_iff.2 isUnattended),
        if_neg (by simp [known]), judgingSet n1 n2, if_neg (by simp [complete]), if_pos limit])

/-! ## An IDLE channel (R142, R167) -/

theorem State.acceptMove_idle {s : State} {c : ChanId} {m : Motion} (idle : (s.ch c).ms.state = .idle) :
    s.acceptMove c m = s.moveIdle c m := by
  unfold State.acceptMove
  rw [idle]

/-- A channel with a motion written for it. -/
def Chan.given (k : Chan) (m : Motion) : Chan := (k.setMotion m).leaseFor m k.ms.pending

theorem State.moveIdle_away {s : State} {c : ChanId} {m : Motion} (away : (s.ch c).atTarget m = false) :
    s.moveIdle c m = (s.setCh c ((s.ch c).given m)).askSlot c m := by
  unfold State.moveIdle
  rw [away]
  rfl

/-- With a slot free and nobody waiting the channel is granted at once. -/
theorem State.moveIdle_granted {s : State} {c : ChanId} {m : Motion} (away : (s.ch c).atTarget m = false)
    (normal : s.supply.state = .normal) (free : s.arbiter.holders.length < s.device.slotCount) (empty : s.arbiter.queue = []) :
    s.moveIdle c m = { s.setCh c (((s.ch c).given m).enterStartup s.supply m) with
      arbiter := { s.arbiter with holders := insertChan c s.arbiter.holders } } := by
  have can : (s.setCh c ((s.ch c).given m)).canGrant = true := by simp [State.canGrant, normal, free]
  have motion : ((s.setCh c ((s.ch c).given m)).ch c).ms.motion = some m := by
    rw [State.ch_setCh_self]
    rfl
  rw [State.moveIdle_away away, State.askSlot, can, State.setCh_arbiter, empty]
  simp only [List.isEmpty_nil, Bool.and_self, if_true]
  rw [State.grant, motion]
  simp only [State.modCh_eq]
  simp [State.setCh, State.ch, empty]

/-- With no grant to be made a channel that asks for a slot joins the queue. -/
theorem State.askSlot_waits {s : State} {c : ChanId} {m : Motion} (cannot : s.canGrant = false) :
    s.askSlot c m = { s.setCh c { s.ch c with ms := { (s.ch c).ms with state := .queued } } with
      arbiter := { s.arbiter with queue := insertEntry ⟨c, m.held⟩ s.arbiter.queue } } := by
  unfold State.askSlot
  rw [cannot, Bool.false_and, if_neg Bool.false_ne_true]
  exact State.grantHeads_of_not_canGrant _ _ cannot

theorem State.canGrant_eq_false {s : State} (none : s.supply.state ≠ .normal ∨ s.device.slotCount ≤ s.arbiter.holders.length) :
    s.canGrant = false := by
  rw [State.canGrant]
  rcases none with off | full
  · simp [off]
  · simp [Nat.not_lt.2 full]

theorem State.moveIdle_queued {s : State} {c : ChanId} {m : Motion} (away : (s.ch c).atTarget m = false)
    (none : s.supply.state ≠ .normal ∨ s.device.slotCount ≤ s.arbiter.holders.length) :
    s.moveIdle c m = { s.setCh c { (s.ch c).given m with ms := { ((s.ch c).given m).ms with state := .queued } } with
      arbiter := { s.arbiter with queue := insertEntry ⟨c, m.held⟩ s.arbiter.queue } } := by
  have cannot : (s.setCh c ((s.ch c).given m)).canGrant = false := State.canGrant_eq_false none
  rw [State.moveIdle_away away, State.askSlot_waits cannot, State.ch_setCh_self, State.setCh_setCh]
  rfl

theorem Excess.emptyWindow_slot (e : Excess) (i : Fin 8) : e.emptyWindow.slots[i] = ⟨e.slots[i].value, .empty⟩ := by
  simp [Excess.emptyWindow]

theorem Chan.scratch_enterStartup {k : Chan} {su : Supply} {m : Motion} (closing : m.dir = .closing) :
    (k.enterStartup su m).rps.scratch = Vector.replicate 64 ⟨0, 0⟩ := by
  simp only [Chan.enterStartup, if_pos closing]
  rfl

/-- Settles O41. -/
theorem moveOfAnIdleChannel : Obligations.MoveOfAnIdleChannel := by
  refine ⟨?_, ?_, ?_⟩
  · intro s tag set kind dir target c k d hearing one isKind isDir idle ch m judged away normal free empty
    have moved := move_accepted (tag := tag) hearing one isKind isDir judged
    rw [State.acceptMove_idle idle, State.moveIdle_granted away normal free empty] at moved
    refine ⟨_, moved, ?_⟩
    have begins := (ch.given m).beginsDrive_enterStartup s.supply m
    have cells := ((ch.given m).rps_enterStartup s.supply m).1
    have slots := (ch.given m).ee.emptyWindow_slot
    simp only [State.ch_answered, State.ch_mk, State.ch_setCh_self, State.answered_arbiter, State.answered_pool, State.answered_replies]
    exact ⟨rfl, rfl, rfl, rfl, decide_eq_true_iff, rfl, rfl, rfl, rfl, rfl, rfl, rfl, rfl, rfl, rfl, rfl, rfl, rfl, rfl, begins,
      slots, rfl, rfl, rfl, Chan.scratch_enterStartup, cells, fun x => mem_insertChan c x _, empty,
      s.sameOthers_setCh c _, ⟨rfl, rfl, rfl, rfl, rfl⟩, rfl, rfl⟩
  · intro s tag set kind dir target c k d hearing one isKind isDir idle ch m judged away none ordered
    have moved := move_accepted (tag := tag) hearing one isKind isDir judged
    rw [State.acceptMove_idle idle, State.moveIdle_queued away none] at moved
    refine ⟨_, moved, ?_⟩
    refine ⟨State.ch_setCh_self s c _, rfl, (insertEntry_eq _ _ ordered).trans ?_, s.sameOthers_setCh c _, ⟨rfl, rfl, rfl, rfl, rfl⟩, rfl⟩
    cases held : m.held <;> simp
  · intro s tag set target c hearing one idle known ch taken posted
    have met {kind dir : Byte} {d : Dir} (isKind : kindOf kind = some .goTo) (isDir : dirOf dir = some d)
        (judged : ch.judgeMove s.supply.state (.goTo d taken) = none) (met : ch.atTarget (.goTo d taken) = true) :
        exec (.move tag set kind dir target) s = .next (posted.answered 0x84 tag 0x00 ([byteOf c.val, 0x00] ++ le16 taken)) := by
      have moved := move_accepted (tag := tag) (target := target) hearing one isKind isDir judged
      rw [State.acceptMove_idle idle, State.moveIdle, requestedMotion, if_pos met, State.postMotionEnd] at moved
      simp only [known] at moved
      exact moved
    refine ⟨fun judged beyond => met rfl rfl judged ?_, fun judged beyond => met rfl rfl judged ?_⟩
    · simp only [Chan.atTarget, Decoder.meets]
      simpa [ch, known] using beyond
    · simp only [Chan.atTarget, Decoder.meets]
      simpa [ch, known] using beyond

/-! ## A running motion (R144, R145) -/

theorem State.acceptMove_running {s : State} {c : ChanId} {old m : Motion}
    (running : (s.ch c).ms.state = .startup ∨ (s.ch c).ms.state = .travel) (motion : (s.ch c).ms.motion = some old) :
    s.acceptMove c m = s.moveRunning c old m := by
  unfold State.acceptMove
  rcases running with running | running
  · rw [running, motion]
  · rw [running, motion]

/-- The motion and the lease of a channel as they stand. -/
theorem Chan.eq_of_motion {k : Chan} {m : Motion} (motion : k.ms.motion = some m) :
    { k with ms := { k.ms with motion := some m, lease := k.ms.lease } } = k := by rw [← motion]

theorem Chan.renewLease_of_motion {k : Chan} {m : Motion} (ps : ParamSet) (motion : k.ms.motion = some m) : k.renewLease ps =
    { k with ms := { k.ms with motion := some m, lease := some (ps.get .jogLease * 1000) } } := by
  rw [← motion]
  rfl

theorem State.moveRunning_normalizing {s : State} {c : ChanId} {old m : Motion} (normalizing : old.normalizing = true) :
    s.moveRunning c old m = s.setCh c ((s.ch c).renewLease (s.ch c).ms.active) := by
  unfold State.moveRunning
  rw [if_pos normalizing]
  rfl

theorem State.moveRunning_joins {s : State} {c : ChanId} {old m : Motion} (plain : old.normalizing = false)
    (same : old.dir = m.dir) (joined : old.joined m = some m) (away : (s.ch c).atTarget m = false) :
    s.moveRunning c old m = s.setCh c (((s.ch c).setMotion m).leaseFor m (s.ch c).ms.active) := by
  unfold State.moveRunning
  rw [if_neg (by simp [plain]), if_pos same, joined]
  dsimp only
  rw [away]
  rfl

theorem State.moveRunning_met {s : State} {c : ChanId} {old m : Motion} (plain : old.normalizing = false)
    (same : old.dir = m.dir) (joined : old.joined m = some m) (met : (s.ch c).atTarget m = true) :
    s.moveRunning c old m =
      s.setCh c ((((s.ch c).setMotion m).leaseFor m (s.ch c).ms.active).enterDwell (.idle .targetReached)) := by
  unfold State.moveRunning
  rw [if_neg (by simp [plain]), if_pos same, joined]
  dsimp only
  rw [if_pos met, State.dwellIdle_eq]
  simp

theorem State.moveRunning_stays {s : State} {c : ChanId} {old m : Motion} (plain : old.normalizing = false)
    (same : old.dir = m.dir) (joined : old.joined m = none) : s.moveRunning c old m =
      if old.held = true then s.setCh c ((s.ch c).renewLease (s.ch c).ms.active) else s := by
  unfold State.moveRunning
  rw [if_neg (by simp [plain]), if_pos same, joined]
  rfl

theorem State.moveRunning_turns {s : State} {c : ChanId} {old m : Motion} (plain : old.normalizing = false)
    (opposite : old.dir ≠ m.dir) : s.moveRunning c old m =
      s.setCh c ((((s.ch c).enterDwell .startup).setMotion m).leaseFor m (s.ch c).ms.active) := by
  unfold State.moveRunning
  rw [if_neg (by simp [plain]), if_neg opposite]
  rfl

theorem Motion.joined_goTo {old : Motion} {d : Dir} {t : Nat} (plain : old.normalizing = false) :
    old.joined (.goTo d t) = some (.goTo d t) := by
  cases old with
  | normalize p => cases plain
  | _ => rfl

/-- Settles O42. -/
theorem moveActsOnARunningMotion : Obligations.MoveActsOnARunningMotion := by
  intro s tag set kind dir target c k d old hearing one isKind isDir running motion ch m taken entry changed renewed judged
  have moved := move_accepted (tag := tag) hearing one isKind isDir judged
  rw [State.acceptMove_running running motion] at moved
  refine ⟨fun _ normalizing => ?_, fun notNormalize plain same away => ⟨fun jog held => ?_, fun jog unheld => ?_, fun express isSame => ?_,
    fun express other => ?_, fun goTo => ?_⟩, fun goTo plain same met => ?_, fun notNormalize plain opposite => ?_⟩
  · rw [State.moveRunning_normalizing normalizing, Chan.renewLease_of_motion _ motion] at moved
    exact moved
  · have joined : old.joined m = none := by
      subst jog
      cases old <;> rfl
    rw [State.moveRunning_stays plain same joined, if_pos held, Chan.renewLease_of_motion _ motion] at moved
    exact moved
  · have joined : old.joined m = none := by
      subst jog
      cases old <;> rfl
    rw [State.moveRunning_stays plain same joined, if_neg (by simp [unheld])] at moved
    refine moved.trans ?_
    rw [Chan.eq_of_motion motion, State.setCh_ch]
  · have joined : old.joined m = none := by
      rw [isSame]
      subst express
      rfl
    have unheld : ¬old.held = true := by
      rw [isSame]
      subst express
      exact Bool.false_ne_true
    rw [State.moveRunning_stays plain same joined, if_neg unheld] at moved
    refine moved.trans ?_
    rw [Chan.eq_of_motion motion, State.setCh_ch]
  · subst express
    have joined : old.joined m = some m := by
      cases old with
      | normalize p => cases plain
      | express e => exact absurd (congrArg Motion.express same) other
      | _ => rfl
    rw [State.moveRunning_joins plain same joined away] at moved
    exact moved
  · subst goTo
    rw [State.moveRunning_joins plain same (Motion.joined_goTo plain) away] at moved
    exact moved
  · subst goTo
    rw [State.moveRunning_met plain same (Motion.joined_goTo plain) met] at moved
    refine ⟨_, moved, ?_⟩
    simp only [State.ch_answered, State.ch_setCh_self, State.answered_arbiter, State.answered_pool, State.answered_notices]
    exact ⟨Chan.dwellsToward_enterDwell _ _, rfl, rfl, s.sameOthers_setCh c _, rfl, ⟨rfl, rfl, rfl, rfl, rfl⟩, rfl, rfl⟩
  · rw [State.moveRunning_turns plain opposite] at moved
    refine ⟨_, moved, ?_⟩
    obtain ⟨state, successor, mode, applied, step, pwm, watchdog, -, timer⟩ := (s.ch c).dwellsToward_enterDwell .startup
    simp only [State.ch_answered, State.ch_setCh_self, State.answered_arbiter, State.answered_pool, State.answered_notices]
    exact ⟨⟨state, successor, mode, applied, step, pwm, watchdog, fun h => absurd rfl h, timer⟩, rfl, rfl, rfl, rfl, rfl, rfl, rfl, rfl,
      s.sameOthers_setCh c _, rfl, ⟨rfl, rfl, rfl, rfl, rfl⟩, rfl, rfl⟩

end Sys2Proof.Machine
end

section
/-! PROOFS. MOVE of a waiting motion, STOP, and the expiries of lease, back-off and dwell. -/

namespace Sys2Proof.Machine

/-! ## What the operations of the sequencer keep of a channel -/

/-- Both sets, the position, the reversal counter and the profile cells stand as before. -/
structure Chan.Keeps (k u : Chan) : Prop where
  pending : u.ms.pending = k.ms.pending
  active : u.ms.active = k.ms.active
  position : u.pd.position = k.pd.position
  known : u.pd.known = k.pd.known
  reversal : u.ms.reversal = k.ms.reversal
  cells : u.rps.cells = k.rps.cells

theorem Chan.Keeps.refl (k : Chan) : k.Keeps k := ⟨rfl, rfl, rfl, rfl, rfl, rfl⟩

theorem Chan.keeps_enterDwell (k : Chan) (x : Successor) : k.Keeps (k.enterDwell x) := ⟨rfl, rfl, rfl, rfl, rfl, rfl⟩

theorem Chan.keeps_enterIdle (k : Chan) : k.Keeps k.enterIdle := ⟨rfl, rfl, rfl, rfl, rfl, rfl⟩

theorem Chan.keeps_redirectDwell (k : Chan) (r : MotionResult) : k.Keeps (k.redirectDwell r) := ⟨rfl, rfl, rfl, rfl, rfl, rfl⟩

theorem Chan.keeps_stopLease (k : Chan) : k.Keeps k.stopLease := ⟨rfl, rfl, rfl, rfl, rfl, rfl⟩

theorem Chan.Keeps.trans {k u v : Chan} (h : k.Keeps u) (g : u.Keeps v) : k.Keeps v :=
  ⟨g.pending.trans h.pending, g.active.trans h.active, g.position.trans h.position, g.known.trans h.known,
    g.reversal.trans h.reversal, g.cells.trans h.cells⟩

/-- A DWELL whose successor is changed runs on. -/
theorem Chan.successor_redirectDwell {k : Chan} {x : Successor} (r : MotionResult) (h : k.successor = some x) :
    (k.redirectDwell r).ms.state = .dwell ∧ (k.redirectDwell r).successor = some (.idle r) ∧
      (k.redirectDwell r).ms.dwell.map DwellRecord.timer = k.ms.dwell.map DwellRecord.timer := by
  have dwells := Chan.dwell_of_successor h
  unfold Chan.successor at h
  rw [if_pos dwells] at h
  obtain ⟨record, isRecord, -⟩ := Option.map_eq_some_iff.1 h
  refine ⟨dwells, ?_, ?_⟩
  · simp [Chan.successor, Chan.redirectDwell, dwells, isRecord]
  · simp [Chan.redirectDwell, isRecord]

/-! ## The end of a wait (R170) -/

/-- A QUEUED channel's wait ends: at rest, its entry gone, the end told. -/
theorem State.endIdle_unheld {s : State} {c : ChanId} (r : MotionResult) (noSlot : c ∉ s.arbiter.holders) :
    let t := s.endIdle c r
    t.ch c = (s.ch c).enterIdle ∧ s.SameOthers t c ∧ s.SameDevice t ∧ t.pool = s.pool ∧
      t.arbiter = ⟨s.arbiter.holders, s.arbiter.queue.filter (fun e => e.chan != c)⟩ ∧
      t.link = { s.link with notices := { s.link.notices with
        motionEnd := s.link.notices.motionEnd.set c (some ⟨r, (s.ch c).pd.position, (s.ch c).pd.known⟩) } } := by
  intro t
  have ended := s.endIdle_of_not_holder c r noSlot
  refine ⟨s.ch_endIdle_self c r, fun d other => ?_, ?_, ?_, ?_, ?_⟩
  all_goals simp only [t, ended]
  · exact State.ch_setCh_ne s _ other
  · exact ⟨rfl, rfl, rfl, rfl, rfl⟩
  · rfl
  · simp only [State.postMotionEnd, State.modCh_eq, State.ch_setCh_self, State.setCh_link]
    rfl

/-- The end of a motion told to the host. -/
theorem State.endIdle_link (s : State) (c : ChanId) (r : MotionResult) : (s.endIdle c r).link =
    { s.link with notices := { s.link.notices with
      motionEnd := s.link.notices.motionEnd.set c (some ⟨r, (s.ch c).pd.position, (s.ch c).pd.known⟩) } } := by
  rw [State.endIdle, State.leaveArbiter_link]
  simp only [State.postMotionEnd, State.modCh_eq, State.ch_setCh_self, State.setCh_link]
  rfl

/-! ## MOVE of a waiting motion (R143, R145) -/

theorem Motion.waitEffect_renew {old : Motion} {k : MoveKind} {d : Dir} (target l : Nat)
    (renews : (k = .jog ∧ old = .jog d) ∨ (k = .normalize ∧ old.normalizing = true)) :
    old.waitEffect (requestedMotion k d target l) = .renew := by
  rcases renews with ⟨rfl, rfl⟩ | ⟨rfl, normalizing⟩
  · exact if_pos rfl
  · cases old with
    | normalize p => rfl
    | _ => cases normalizing

theorem Motion.waitEffect_keep {old : Motion} {k : MoveKind} {d : Dir} (target l : Nat) (keeps : k = .express ∧ old = .express d) :
    old.waitEffect (requestedMotion k d target l) = .keep := by
  obtain ⟨rfl, rfl⟩ := keeps
  exact if_pos rfl

theorem Motion.waitEffect_replace {old : Motion} {k : MoveKind} {d : Dir} (target l : Nat)
    (noRenewal : ¬((k = .jog ∧ old = .jog d) ∨ (k = .normalize ∧ old.normalizing = true)))
    (noKeeping : ¬(k = .express ∧ old = .express d)) :
    old.waitEffect (requestedMotion k d target l) = .replace (requestedMotion k d target l) := by
  cases k with
  | jog =>
    cases old with
    | jog e => exact if_neg (fun same => noRenewal (.inl ⟨rfl, congrArg Motion.jog same⟩))
    | _ => rfl
  | express =>
    cases old with
    | express e => exact if_neg (fun same => noKeeping ⟨rfl, congrArg Motion.express same⟩)
    | _ => rfl
  | goTo => cases old <;> rfl
  | normalize =>
    cases old with
    | normalize p => exact absurd (.inr ⟨rfl, rfl⟩) noRenewal
    | _ => rfl

theorem State.acceptMove_queued {s : State} {c : ChanId} {old m : Motion} (queued : (s.ch c).ms.state = .queued)
    (motion : (s.ch c).ms.motion = some old) : s.acceptMove c m = s.moveQueued c old m := by
  unfold State.acceptMove
  rw [queued, motion]

theorem State.acceptMove_dwell {s : State} {c : ChanId} {old m : Motion} (dwells : (s.ch c).ms.state = .dwell)
    (motion : (s.ch c).ms.motion = some old) : s.acceptMove c m = s.moveDwell c old m := by
  unfold State.acceptMove
  rw [dwells, motion]

theorem heldFirst_filter {q : List QueueEntry} (p : QueueEntry → Bool) (h : heldFirst q) : heldFirst (q.filter p) := h.filter p

theorem Chan.atTarget_known {k : Chan} {m : Motion} (met : k.atTarget m = true) : k.pd.known = true := by
  unfold Chan.atTarget at met
  split at met
  · exact (Bool.and_eq_true_iff.1 met).1
  · cases met

/-- A motion written in the place of a waiting one, against a set. -/
def Chan.rewritten (k : Chan) (m : Motion) (ps : ParamSet) : Chan := (k.setMotion m).leaseFor m ps

theorem State.moveQueued_replace {s : State} {c : ChanId} {old m : Motion} (effect : old.waitEffect m = .replace m)
    (away : (s.ch c).atTarget m = false) : s.moveQueued c old m =
      { s.setCh c ((s.ch c).rewritten m (s.ch c).ms.pending) with arbiter := { s.arbiter with
        queue := if old.held ≠ m.held then requeue c m.held s.arbiter.queue else s.arbiter.queue } } := by
  unfold State.moveQueued
  rw [effect]
  dsimp only
  rw [if_neg (by simp [away])]
  by_cases same : old.held = m.held
  · rw [if_pos same, if_neg (not_not.2 same)]
    rfl
  · rw [if_neg same, if_pos same]
    rfl

theorem State.moveQueued_met {s : State} {c : ChanId} {old m : Motion} (effect : old.waitEffect m = .replace m)
    (met : (s.ch c).atTarget m = true) : s.moveQueued c old m = s.endIdle c .targetReached := by
  unfold State.moveQueued
  rw [effect]
  dsimp only
  rw [if_pos met]

theorem State.moveDwell_replace {s : State} {c : ChanId} {old m : Motion} (effect : old.waitEffect m = .replace m)
    (away : (s.ch c).atTarget m = false) :
    s.moveDwell c old m = s.setCh c ((s.ch c).rewritten m (s.ch c).ms.active) := by
  unfold State.moveDwell
  rw [effect]
  dsimp only
  rw [if_neg (by simp [away])]
  rfl

theorem State.moveDwell_met {s : State} {c : ChanId} {old m : Motion} (effect : old.waitEffect m = .replace m)
    (met : (s.ch c).atTarget m = true) : s.moveDwell c old m = s.setCh c ((s.ch c).redirectDwell .targetReached) := by
  unfold State.moveDwell
  rw [effect]
  dsimp only
  rw [if_pos met]
  rfl

/-- Settles O43. -/
theorem moveActsOnAWaitingMotion : Obligations.MoveActsOnAWaitingMotion := by
  intro s tag set kind dir target c k d old hearing one isKind isDir waits motion ch m ps taken entry renews keeps rest judged
  have moved := move_accepted (tag := tag) hearing one isKind isDir judged
  have cases_ : (ch.ms.state = .queued ∧ ps = ch.ms.pending ∧ s.acceptMove c m = s.moveQueued c old m) ∨
      (ch.ms.state ≠ .queued ∧ ps = ch.ms.active ∧ ch.successor = some .startup ∧ s.acceptMove c m = s.moveDwell c old m) := by
    rcases waits with queued | dwells
    · exact .inl ⟨queued, if_pos queued, State.acceptMove_queued queued motion⟩
    · have state : ch.ms.state = .dwell := Chan.dwell_of_successor dwells
      have other : ch.ms.state ≠ .queued := by simp [state]
      exact .inr ⟨other, if_neg other, dwells, State.acceptMove_dwell state motion⟩
  refine ⟨fun renewal => ?_, fun keeping => ?_, fun noRenewal noKeeping away ordered => ?_, fun noRenewal noKeeping met slot => ?_⟩
  · have effect : old.waitEffect m = .renew := Motion.waitEffect_renew _ _ renewal
    refine moved.trans ?_
    rcases cases_ with ⟨-, set_, accepted⟩ | ⟨-, set_, -, accepted⟩
    · rw [show requestedMotion k d target.toNat ((s.ch c).ms.active.get .travelLength) = m from rfl, accepted, set_,
        State.moveQueued, effect]
      rfl
    · rw [show requestedMotion k d target.toNat ((s.ch c).ms.active.get .travelLength) = m from rfl, accepted, set_,
        State.moveDwell, effect]
      rfl
  · have effect : old.waitEffect m = .keep := Motion.waitEffect_keep _ _ keeping
    refine moved.trans ?_
    rcases cases_ with ⟨-, -, accepted⟩ | ⟨-, -, -, accepted⟩
    · rw [show requestedMotion k d target.toNat ((s.ch c).ms.active.get .travelLength) = m from rfl, accepted,
        State.moveQueued, effect]
    · rw [show requestedMotion k d target.toNat ((s.ch c).ms.active.get .travelLength) = m from rfl, accepted,
        State.moveDwell, effect]
  · have effect : old.waitEffect m = .replace m := Motion.waitEffect_replace _ _ noRenewal noKeeping
    rcases cases_ with ⟨queued, set_, accepted⟩ | ⟨other, set_, -, accepted⟩
    · refine ⟨_, moved.trans (by rw [show s.acceptMove c _ = _ from accepted, State.moveQueued_replace effect away]), ?_⟩
      rw [set_]
      simp only [State.answered_notices, State.answered_arbiter]
      refine ⟨State.ch_setCh_self s c _, trivial, ?_, s.sameOthers_setCh c _, ⟨rfl, rfl, rfl, rfl, rfl⟩, rfl, rfl⟩
      by_cases same : old.held = m.held
      · simp [same]
      · rw [if_pos same, if_pos ⟨queued, same⟩, requeue, insertEntry_eq _ _ (heldFirst_filter _ ordered)]
        cases m.held <;> rfl
    · refine ⟨_, moved.trans (by rw [show s.acceptMove c _ = _ from accepted, State.moveDwell_replace effect away]), ?_⟩
      rw [set_]
      simp only [State.answered_notices, State.answered_arbiter]
      exact ⟨State.ch_setCh_self s c _, rfl, (if_neg (fun h => other h.1)).symm, s.sameOthers_setCh c _, ⟨rfl, rfl, rfl, rfl, rfl⟩, rfl, rfl⟩
  · have effect : old.waitEffect m = .replace m := Motion.waitEffect_replace _ _ noRenewal noKeeping
    rcases cases_ with ⟨queued, -, accepted⟩ | ⟨other, -, dwells, accepted⟩
    · refine ⟨_, moved.trans (by rw [show s.acceptMove c _ = _ from accepted, State.moveQueued_met effect met]), ?_⟩
      obtain ⟨chan, others, device, pool, arbiter, link⟩ :=
        State.endIdle_unheld (s := s) (c := c) .targetReached (slot.resolve_right (not_not.2 queued))
      have known : (s.ch c).pd.known = true := Chan.atTarget_known met
      simp only [State.answered_notices, State.answered_arbiter, State.ch_answered, State.answered_pool, chan, arbiter, pool, link]
      refine ⟨rfl, rfl, rfl, rfl, trivial, others, device, trivial, fun _ => ⟨rfl, rfl, ?_⟩, fun other => absurd queued other⟩
      simp [known, ch]
    · refine ⟨_, moved.trans (by rw [show s.acceptMove c _ = _ from accepted, State.moveDwell_met effect met]), ?_⟩
      obtain ⟨-, successor, timer⟩ := Chan.successor_redirectDwell .targetReached dwells
      simp only [State.answered_notices, State.ch_answered, State.ch_setCh_self]
      exact ⟨rfl, rfl, rfl, rfl, rfl, s.sameOthers_setCh c _, ⟨rfl, rfl, rfl, rfl, rfl⟩, rfl, fun queued => absurd queued other,
        fun _ => ⟨successor, timer, rfl, rfl⟩⟩

end Sys2Proof.Machine
end

section
/-! PROOFS. STOP, and the expiries of the lease and of the back-off timer. -/

namespace Sys2Proof.Machine

/-! ## STOP (R147) -/

/-- What STOP makes of a channel whose motion is not queued. -/
def Chan.stopped (k : Chan) : Chan :=
  match k.ms.state with
  | .startup | .travel => k.enterDwell (.idle .stopped)
  | .dwell =>
    match k.successor with
    | some .startup | some .backoff => k.redirectDwell .stopped
    | _ => k
  | .backoff => k.enterDwell (.idle .reversed)
  | .queued | .disabled | .idle | .fault => k

theorem State.stopOne_queued {s : State} {c : ChanId} (queued : (s.ch c).ms.state = .queued) : s.stopOne c = s.endIdle c .stopped := by
  unfold State.stopOne
  rw [queued]

theorem State.stopOne_unqueued {s : State} {c : ChanId} (unqueued : (s.ch c).ms.state ≠ .queued) :
    s.stopOne c = s.setCh c (s.ch c).stopped := by
  unfold State.stopOne Chan.stopped
  cases state : (s.ch c).ms.state with
  | queued => exact absurd state unqueued
  | startup | travel | backoff => rfl
  | dwell =>
    dsimp only
    rcases (s.ch c).successor with _ | (_ | _ | _ | _)
    case some.startup | some.backoff => rfl
    case none | some.idle | some.fault => exact (s.setCh_ch c).symm
  | disabled | idle | fault => exact (s.setCh_ch c).symm

theorem Chan.keeps_stopped (k : Chan) : k.Keeps k.stopped := by
  unfold Chan.stopped
  cases k.ms.state with
  | startup | travel | backoff => exact k.keeps_enterDwell _
  | dwell =>
    dsimp only
    split
    · exact k.keeps_redirectDwell _
    · exact k.keeps_redirectDwell _
    · exact .refl k
  | queued | disabled | idle | fault => exact .refl k

theorem Chan.stopped_running {k : Chan} (running : k.ms.state = .startup ∨ k.ms.state = .travel) :
    k.stopped.DwellsToward (.idle .stopped) := by
  unfold Chan.stopped
  rcases running with state | state <;> rw [state] <;> exact k.dwellsToward_enterDwell _

theorem Chan.stopped_backoff {k : Chan} (state : k.ms.state = .backoff) : k.stopped.DwellsToward (.idle .reversed) := by
  unfold Chan.stopped
  rw [state]
  exact k.dwellsToward_enterDwell _

theorem Chan.stopped_redirected {k : Chan} (waits : k.successor = some .startup ∨ k.successor = some .backoff) :
    k.stopped = k.redirectDwell .stopped := by
  unfold Chan.stopped
  rcases waits with h | h <;> rw [Chan.dwell_of_successor h, h]

theorem Chan.stopped_stays {k : Chan} (rests : k.ms.state = .disabled ∨ k.ms.state = .idle ∨ k.ms.state = .fault ∨
    (∃ r, k.successor = some (.idle r)) ∨ (∃ x, k.successor = some (.fault x))) : k.stopped = k := by
  unfold Chan.stopped
  rcases rests with h | h | h | ⟨r, h⟩ | ⟨x, h⟩
  · rw [h]
  · rw [h]
  · rw [h]
  · rw [Chan.dwell_of_successor h, h]
  · rw [Chan.dwell_of_successor h, h]

theorem Chan.not_dwell_of_queued {k : Chan} {x : Successor} (queued : k.ms.state = .queued) (h : k.successor = some x) : False := by
  rw [Chan.dwell_of_successor h] at queued
  cases queued

/-- STOP of one channel (R147): the frame it is answered with and the channel it acts on. -/
theorem stop_accepted {s : State} {tag set : Byte} {c : ChanId} (hearing : s.hearing) (one : chansOf set = [c]) :
    exec (.stop tag set) s = .next ((s.stopOne c).answered 0x85 tag 0x00 [byteOf c.val, 0x00]) := by
  refine (request_answered hearing (show reqStop set s = (answer .ok _, _) from rfl)).trans ?_
  rw [one]
  rfl

/-- Settles O44. -/
theorem stopActsByState : Obligations.StopActsByState := by
  refine ⟨fun s tag set c hearing one apart => ⟨_, stop_accepted hearing one, ?_⟩, fun s tag set hearing =>
    request_answered hearing (show reqStop set s = (answer .ok _, _) from rfl)⟩
  by_cases queued : (s.ch c).ms.state = .queued
  · obtain ⟨chan, others, device, pool, arbiter, link⟩ :=
      State.endIdle_unheld (s := s) (c := c) .stopped (apart.resolve_right (not_not.2 queued))
    rw [State.stopOne_queued queued]
    obtain ⟨pending, active, position, known, reversal, cells⟩ := (s.ch c).keeps_enterIdle
    simp only [State.ch_answered, State.answered_arbiter, State.answered_pool, State.answered_notices,
      State.answered_replies, chan, arbiter, pool, link]
    refine ⟨others, device, trivial, trivial, trivial, pending, active, position, known, reversal, cells, fun _ => ⟨rfl, trivial, ?_⟩,
      fun other => absurd queued other, ?_, ?_, ?_, ?_⟩
    · exact Vector.getElem_set_self _
    · rintro (state | state) <;> simp [queued] at state
    · rintro (waits | waits) <;> exact (Chan.not_dwell_of_queued queued waits).elim
    · intro state
      simp [queued] at state
    · rintro (state | state | state | ⟨r, h⟩ | ⟨x, h⟩)
      · simp [queued] at state
      · simp [queued] at state
      · simp [queued] at state
      · exact (Chan.not_dwell_of_queued queued h).elim
      · exact (Chan.not_dwell_of_queued queued h).elim
  · rw [State.stopOne_unqueued queued]
    obtain ⟨pending, active, position, known, reversal, cells⟩ := (s.ch c).keeps_stopped
    simp only [State.ch_answered, State.answered_arbiter, State.answered_pool, State.answered_notices,
      State.answered_replies, State.ch_setCh_self]
    refine ⟨s.sameOthers_setCh c _, ⟨rfl, rfl, rfl, rfl, rfl⟩, rfl, rfl, rfl, pending, active, position, known, reversal, cells,
      fun h => absurd h queued, fun _ => ⟨rfl, rfl⟩, Chan.stopped_running, fun waits => ?_, Chan.stopped_backoff,
      Chan.stopped_stays⟩
    rw [Chan.stopped_redirected waits]
    obtain ⟨state, successor, timer⟩ : ((s.ch c).redirectDwell .stopped).ms.state = .dwell ∧
        ((s.ch c).redirectDwell .stopped).successor = some (.idle .stopped) ∧
        ((s.ch c).redirectDwell .stopped).ms.dwell.map DwellRecord.timer = (s.ch c).ms.dwell.map DwellRecord.timer := by
      rcases waits with h | h <;> exact Chan.successor_redirectDwell .stopped h
    exact ⟨state, successor, rfl, rfl, rfl, timer⟩

/-! ## The lease and the back-off timer (R146, R154) -/

theorem exec_leaseExpiry (c : ChanId) (s : State) : exec (.leaseExpiry c) s = .next (s.leaseExpiry c).serve := rfl

theorem exec_backoffTimerExpiry (c : ChanId) (s : State) : exec (.backoffTimerExpiry c) s = .next (s.backoffExpiry c).serve := rfl

/-- What the expiry of a running lease makes of a channel whose motion is not queued. -/
def Chan.leaseEnded (k : Chan) : Chan :=
  match k.ms.state with
  | .startup | .travel => k.stopLease.enterDwell (.idle .leaseExpired)
  | .dwell =>
    match k.successor with
    | some .startup => k.stopLease.redirectDwell .leaseExpired
    | _ => k.stopLease
  | .queued | .disabled | .idle | .backoff | .fault => k.stopLease

theorem State.leaseExpiry_none {s : State} {c : ChanId} (stopped : (s.ch c).ms.lease = none) : s.leaseExpiry c = s := by
  unfold State.leaseExpiry
  rw [stopped]
  rfl

theorem State.leaseExpiry_queued {s : State} {c : ChanId} (runs : (s.ch c).ms.lease.isSome = true)
    (queued : (s.ch c).ms.state = .queued) : s.leaseExpiry c = (s.setCh c (s.ch c).stopLease).endIdle c .leaseExpired := by
  unfold State.leaseExpiry
  rw [if_pos runs, queued]
  rfl

theorem State.leaseExpiry_unqueued {s : State} {c : ChanId} (runs : (s.ch c).ms.lease.isSome = true)
    (unqueued : (s.ch c).ms.state ≠ .queued) : s.leaseExpiry c = s.setCh c (s.ch c).leaseEnded := by
  unfold State.leaseExpiry Chan.leaseEnded
  rw [if_pos runs]
  cases state : (s.ch c).ms.state with
  | queued => exact absurd state unqueued
  | startup | travel => simp [State.dwellIdle, State.setCh_setCh]
  | dwell =>
    dsimp only
    rcases (s.ch c).successor with _ | (_ | _ | _ | _)
    case some.startup => simp [State.setCh_setCh]
    case none | some.backoff | some.idle | some.fault => rfl
  | disabled | idle | backoff | fault => rfl

theorem Chan.keeps_leaseEnded (k : Chan) : k.Keeps k.leaseEnded := by
  unfold Chan.leaseEnded
  cases k.ms.state with
  | startup | travel => exact k.keeps_stopLease.trans (k.stopLease.keeps_enterDwell _)
  | dwell =>
    dsimp only
    split
    · exact k.keeps_stopLease.trans (k.stopLease.keeps_redirectDwell _)
    · exact k.keeps_stopLease
  | queued | disabled | idle | backoff | fault => exact k.keeps_stopLease

theorem Chan.lease_leaseEnded (k : Chan) : k.leaseEnded.ms.lease = none := by
  unfold Chan.leaseEnded
  cases k.ms.state with
  | dwell =>
    dsimp only
    split <;> rfl
  | startup | travel | queued | disabled | idle | backoff | fault => rfl

theorem Chan.leaseEnded_running {k : Chan} (running : k.ms.state = .startup ∨ k.ms.state = .travel) :
    k.leaseEnded.DwellsToward (.idle .leaseExpired) := by
  unfold Chan.leaseEnded
  rcases running with state | state <;> rw [state] <;> exact k.stopLease.dwellsToward_enterDwell _

theorem Chan.leaseEnded_redirected {k : Chan} (waits : k.successor = some .startup) :
    k.leaseEnded = k.stopLease.redirectDwell .leaseExpired := by
  unfold Chan.leaseEnded
  rw [Chan.dwell_of_successor waits, waits]

/-- The lease of a QUEUED channel ends its wait (R146, R170). -/
theorem State.leaseExpiry_unheld {s : State} {c : ChanId} (runs : (s.ch c).ms.lease.isSome = true)
    (queued : (s.ch c).ms.state = .queued) (noSlot : c ∉ s.arbiter.holders) :
    let t := s.leaseExpiry c
    t.ch c = (s.ch c).enterIdle ∧ s.SameOthers t c ∧ s.SameDevice t ∧ t.pool = s.pool ∧
      t.arbiter = ⟨s.arbiter.holders, s.arbiter.queue.filter (fun e => e.chan != c)⟩ ∧
      t.link = { s.link with notices := { s.link.notices with
        motionEnd := s.link.notices.motionEnd.set c (some ⟨.leaseExpired, (s.ch c).pd.position, (s.ch c).pd.known⟩) } } := by
  intro t
  obtain ⟨chan, others, device, pool, arbiter, link⟩ :=
    State.endIdle_unheld (s := s.setCh c (s.ch c).stopLease) (c := c) .leaseExpired noSlot
  rw [← State.leaseExpiry_queued runs queued] at chan others device pool arbiter link
  refine ⟨?_, fun d other => ?_, device, pool, arbiter, ?_⟩
  · rw [chan, State.ch_setCh_self]
    rfl
  · rw [others d other, State.ch_setCh_ne _ _ other]
  · rw [link, State.ch_setCh_self]
    rfl

/-- Settles O45. -/
theorem leaseAndBackoffTimersExpire : Obligations.LeaseAndBackoffTimersExpire := by
  refine ⟨fun s c => ⟨fun stopped => ?_, fun runs apart => ⟨_, exec_leaseExpiry c s, ?_⟩⟩, fun s c => ⟨fun state => ?_, fun state => ?_⟩,
    fun s c runs waits => ⟨fun queued noSlot => ⟨_, exec_leaseExpiry c s, ?_⟩, fun unqueued => ⟨_, exec_leaseExpiry c s, ?_⟩⟩⟩
  · rw [exec_leaseExpiry, State.leaseExpiry_none stopped]
  · by_cases queued : (s.ch c).ms.state = .queued
    · obtain ⟨chan, others, device, pool, arbiter, link⟩ :=
        State.leaseExpiry_unheld runs queued (apart.resolve_right (not_not.2 queued))
      obtain ⟨pending, active, position, known, reversal, cells⟩ := (s.ch c).keeps_enterIdle
      have sameLink : s.SameLink (s.leaseExpiry c) := by
        unfold State.SameLink
        rw [link]
        exact ⟨rfl, rfl, rfl, rfl, rfl, rfl, rfl, rfl, rfl⟩
      simp only [State.ch_serve, State.serve_arbiter, State.serve_pool, chan, arbiter, pool]
      refine ⟨rfl, others, device, State.sameLink_serve sameLink, trivial, trivial, pending, active, position, known, reversal, cells,
        fun _ => ⟨rfl, rfl, trivial⟩, fun other => absurd queued other, ?_, fun waits => (Chan.not_dwell_of_queued queued waits).elim⟩
      rintro (state | state) <;> simp [queued] at state
    · rw [State.leaseExpiry_unqueued runs queued]
      obtain ⟨pending, active, position, known, reversal, cells⟩ := (s.ch c).keeps_leaseEnded
      simp only [State.ch_serve, State.serve_arbiter, State.serve_pool, State.ch_setCh_self]
      refine ⟨Chan.lease_leaseEnded _, s.sameOthers_setCh c _, ⟨rfl, rfl, rfl, rfl, rfl⟩,
        State.sameLink_serve ⟨rfl, rfl, rfl, rfl, rfl, rfl, rfl, rfl, rfl⟩, rfl, rfl, pending, active, position, known, reversal,
        cells, fun h => absurd h queued, fun _ => rfl, Chan.leaseEnded_running, fun waits' => ?_⟩
      rw [Chan.leaseEnded_redirected waits']
      obtain ⟨state, successor, timer⟩ := Chan.successor_redirectDwell (k := (s.ch c).stopLease) .leaseExpired waits'
      exact ⟨state, successor, rfl, timer⟩
  · refine ⟨_, exec_backoffTimerExpiry c s, ?_⟩
    rw [State.backoffExpiry, if_pos state, State.dwellIdle, State.modCh_eq]
    simp only [State.ch_serve, State.serve_pool, State.ch_setCh_self]
    exact ⟨Chan.dwellsToward_enterDwell _ _, rfl, rfl, rfl, rfl, s.sameOthers_setCh c _,
      ⟨rfl, ⟨rfl, rfl, rfl, rfl, rfl⟩, State.sameLink_serve ⟨rfl, rfl, rfl, rfl, rfl, rfl, rfl, rfl, rfl⟩⟩, rfl⟩
  · rw [exec_backoffTimerExpiry, State.backoffExpiry, if_neg state]
  · obtain ⟨chan, -, -, -, -, link⟩ := State.leaseExpiry_unheld runs queued noSlot
    refine ⟨?_, ?_, ?_, ?_⟩
    · rw [State.ch_serve, chan]
      rfl
    · rw [State.ch_serve, chan]
      rfl
    · rw [State.ch_serve, chan]
      rfl
    · rw [State.serve_link, Link.serve_notices_of_wait s waits _ (by rw [link]) (by rw [link]), link]
  · rw [State.leaseExpiry_unqueued runs unqueued, State.serve_link]
    exact Link.serve_notices_of_wait s waits (s.setCh c (s.ch c).leaseEnded).link rfl rfl

end Sys2Proof.Machine
end

section
/-! PROOFS. The expiry of a DWELL. -/

namespace Sys2Proof.Machine

theorem exec_dwellExpiry (c : ChanId) (s : State) : exec (.dwellExpiry c) s = .next (s.dwellExpiry c).serve := rfl

/-! ## The successor entered, case by case (R152, R154) -/

theorem State.dwellExpiry_idle {s : State} {c : ChanId} {r : MotionResult} (h : (s.ch c).successor = some (.idle r)) :
    s.dwellExpiry c = s.endIdle c r := by
  unfold State.dwellExpiry
  dsimp only
  rw [h]

theorem State.dwellExpiry_fault {s : State} {c : ChanId} {x : Condition} (h : (s.ch c).successor = some (.fault x)) :
    s.dwellExpiry c = s.enterFault c (.condition x) := by
  unfold State.dwellExpiry
  dsimp only
  rw [h]

theorem State.dwellExpiry_startup {s : State} {c : ChanId} {m : Motion} (h : (s.ch c).successor = some .startup)
    (motion : (s.ch c).ms.motion = some m) : s.dwellExpiry c =
      if (m.unattendedClose && !(s.ch c).pd.known) = true then s.endIdle c .positionLost
      else s.setCh c ((s.ch c).enterStartup s.supply m) := by
  unfold State.dwellExpiry
  dsimp only
  rw [h, motion]
  rfl

theorem State.dwellExpiry_backoff {s : State} {c : ChanId} {b : BackoffRecord} (h : (s.ch c).successor = some .backoff)
    (record : (s.ch c).ms.backoff = some b) : s.dwellExpiry c =
      if (s.ch c).pd.meets .opening b.target = true then s.endIdle c .reversed
      else s.setCh c ((s.ch c).enterBackoff s.supply b.target) := by
  unfold State.dwellExpiry
  dsimp only
  rw [h, record]
  rfl

theorem Decoder.meets_opening {d : Decoder} {target : Int} :
    d.meets .opening target = true ↔ d.known = true ∧ target ≤ d.position := by
  simp [Decoder.meets]

/-! ## A motion's end that gives up the slot -/

/-- A channel has come to rest outside slots and queue, its motion's end told to the host. -/
structure State.Left (s t : State) (c : ChanId) (k : Chan) (r : MotionResult) : Prop where
  chan : t.ch c = k
  noSlot : c ∉ t.arbiter.holders
  noEntry : c ∉ t.arbiter.queue.map QueueEntry.chan
  pool : t.pool = s.pool
  device : s.SameDevice t
  told : s.link.sending.isSome = true ∨ s.link.replies ≠ [] →
    t.link.notices.motionEnd[c] = some ⟨r, (s.ch c).pd.position, (s.ch c).pd.known⟩

theorem State.left_endIdle (s : State) (c : ChanId) (r : MotionResult) :
    s.Left (s.endIdle c r).serve c (s.ch c).enterIdle r where
  chan := s.ch_endIdle_self c r
  noSlot := (State.not_mem_leaveArbiter _ c).1
  noEntry := (State.not_mem_leaveArbiter _ c).2
  pool := by simp [State.endIdle]
  device := by simp [State.SameDevice, State.endIdle]
  told waits := by
    have link := s.endIdle_link c r
    rw [State.serve_link, Link.serve_notices_of_wait s waits _ (by rw [link]) (by rw [link]), link]
    exact Vector.getElem_set_self _

theorem State.stopToFault_dwell {s : State} {c : ChanId} (q : FaultCause) (dwells : (s.ch c).ms.state = .dwell) :
    s.stopToFault c q = (s.setCh c ((s.ch c).discardScratch.rest .fault q)).postMotionEnd c .faultStop := by
  unfold State.stopToFault
  dsimp only
  rw [dwells]
  rfl

theorem State.left_enterFault {s : State} {c : ChanId} (q : FaultCause) (dwells : (s.ch c).ms.state = .dwell) :
    s.Left (s.enterFault c q).serve c ((s.ch c).discardScratch.rest .fault q) .faultStop where
  chan := s.ch_enterFault_self c q
  noSlot := (State.not_mem_leaveArbiter _ c).1
  noEntry := (State.not_mem_leaveArbiter _ c).2
  pool := by simp [State.enterFault]
  device := by simp [State.SameDevice, State.enterFault]
  told waits := by
    have link : (s.enterFault c q).link =
        ((s.setCh c ((s.ch c).discardScratch.rest .fault q)).postMotionEnd c .faultStop).link := by
      rw [State.enterFault, State.leaveArbiter_link, State.stopToFault_dwell q dwells]
    rw [State.serve_link, Link.serve_notices_of_wait s waits _ (by rw [link]; rfl) (by rw [link]; rfl), link]
    simp only [State.postMotionEnd, State.ch_setCh_self]
    exact Vector.getElem_set_self _

/-- A DWELL's expiry toward rest: to IDLE with a result or to FAULT. -/
def Chan.DwellReleases (k : Chan) : Prop :=
  (∃ r, k.successor = some (.idle r)) ∨ (∃ x, k.successor = some (.fault x)) ∨
    (∃ m, k.successor = some .startup ∧ k.ms.motion = some m ∧ m.unattendedClose = true ∧ k.pd.known = false) ∨
    (∃ b, k.successor = some .backoff ∧ k.ms.backoff = some b ∧ k.pd.known = true ∧ b.target ≤ k.pd.position)

/-- What stands before the channel leaves the arbiter: all but the channel as before. -/
structure State.Settled (s u : State) (c : ChanId) : Prop where
  arbiter : u.arbiter = s.arbiter
  device : s.SameDevice u
  pool : u.pool = s.pool
  others : s.SameOthers u c

theorem State.settled_end (s : State) (c : ChanId) (k : Chan) (r : MotionResult) : s.Settled ((s.setCh c k).postMotionEnd c r) c :=
  ⟨rfl, ⟨rfl, rfl, rfl, rfl, rfl⟩, rfl, s.sameOthers_setCh c k⟩

theorem State.dwellExpiry_releases {s : State} {c : ChanId} (h : (s.ch c).DwellReleases) :
    ∃ u, s.dwellExpiry c = u.leaveArbiter c ∧ s.Settled u c := by
  rcases h with ⟨r, toIdle⟩ | ⟨x, toFault⟩ | ⟨m, toStartup, motion, unattended, unknown⟩ | ⟨b, toBackoff, record, known, met⟩
  · exact ⟨_, State.dwellExpiry_idle toIdle, s.settled_end c _ r⟩
  · refine ⟨_, State.dwellExpiry_fault toFault, ?_⟩
    rw [State.stopToFault_dwell _ (Chan.dwell_of_successor toFault)]
    exact s.settled_end c _ .faultStop
  · refine ⟨_, (State.dwellExpiry_startup toStartup motion).trans (if_pos ?_), s.settled_end c _ .positionLost⟩
    rw [unattended, unknown]
    rfl
  · exact ⟨_, (State.dwellExpiry_backoff toBackoff record).trans (if_pos (Decoder.meets_opening.2 ⟨known, met⟩)),
      s.settled_end c _ .reversed⟩

/-- Where no grant was possible before, the slot released serves the head alone (R168). -/
theorem State.released_grants_head {s : State} {e : QueueEntry} {rest : List QueueEntry} (slots : s.SlotLaw) (noneWaits : s.NoneWaits)
    (normal : s.supply.state = .normal) (queue : s.arbiter.queue = e :: rest) :
    min (s.device.slotCount + 1 - s.arbiter.holders.length) s.arbiter.queue.length = 1 := by
  obtain ⟨-, fits, -, -⟩ := slots
  have full : ¬s.arbiter.holders.length < s.device.slotCount := fun free => by
    have none_ := noneWaits (State.canGrant_iff.2 ⟨free, normal⟩)
    rw [queue] at none_
    cases none_
  rw [queue, List.length_cons]
  omega

/-- A channel's entry into STARTUP keeps its profile cells, and clears the scratch of a closing drive (R79). -/
theorem Chan.startup_fields (g : Chan) {m : Motion} (su : Supply) (motion : g.ms.motion = some m) :
    let u := g.enterStartup su m
    u.ms = { g.ms with
      active := g.ms.pending, override := decide (g.ms.pending.get .reversalLimit ≤ g.ms.reversal), state := .startup,
      dwell := none, taint := false, blanking := 0, marker := false } ∧
    u.pd.timer = 0 ∧ u.pd.overflow = 0 ∧ u.pd.ring = [] ∧ u.pd.confirm = 0 ∧
    u.pd.watchdog = some (g.ms.pending.get .stallTimeout * 1000) ∧ u.pd.position = g.pd.position ∧
    u.pd.known = g.pd.known ∧ u.pd.difference = g.pd.difference ∧ u.pd.travel = g.pd.travel ∧
    u.out.BeginsDrive g.ms.pending m su ∧
    (∀ i : Fin 8, u.ee.slots[i] = ⟨g.ee.slots[i].value, .empty⟩) ∧ u.ee.top = 0 ∧
    u.ee.history = List.replicate 8 false ∧ u.ee.summary = ⟨none, none, none, none⟩ ∧
    (m.dir = .closing → u.rps.scratch = Vector.replicate 64 ⟨0, 0⟩) ∧ u.rps.cells = g.rps.cells := by
  refine ⟨?_, rfl, rfl, rfl, rfl, rfl, rfl, rfl, rfl, rfl, g.beginsDrive_enterStartup su m, fun i => g.ee.emptyWindow_slot i, rfl,
    rfl, rfl, Chan.scratch_enterStartup, (g.rps_enterStartup su m).1⟩
  rw [Chan.enterStartup, Sequencer.copySets, ← motion]

/-- Settles O46. -/
theorem dwellExpiryEntersTheSuccessor : Obligations.DwellExpiryEntersTheSuccessor := by
  refine ⟨fun s c dwells => ⟨fun r toIdle => ⟨_, exec_dwellExpiry c s, ?_⟩, fun x toFault => ⟨_, exec_dwellExpiry c s, ?_⟩,
    fun m toStartup motion attended => ⟨_, exec_dwellExpiry c s, ?_⟩,
    fun m toStartup motion unattended unknown => ⟨_, exec_dwellExpiry c s, ?_⟩,
    fun b toBackoff record away => ⟨_, exec_dwellExpiry c s, ?_⟩,
    fun b toBackoff record known met => ⟨_, exec_dwellExpiry c s, ?_⟩⟩,
    fun s c slots arbiter dwells => ?_⟩
  · rw [State.dwellExpiry_idle toIdle]
    obtain ⟨chan, noSlot, noEntry, pool, device, told⟩ := s.left_endIdle c r
    rw [chan]
    exact ⟨rfl, rfl, rfl, rfl, rfl, rfl, rfl, noSlot, noEntry, pool, device, told⟩
  · rw [State.dwellExpiry_fault toFault]
    obtain ⟨chan, noSlot, -, pool, device, told⟩ := State.left_enterFault (.condition x) dwells
    rw [chan]
    exact ⟨rfl, rfl, rfl, rfl, rfl, rfl, noSlot, pool, device, told⟩
  · have drives : ¬(m.unattendedClose && !(s.ch c).pd.known) = true := by
      simpa using attended
    rw [State.dwellExpiry_startup toStartup motion, if_neg drives]
    simp only [State.ch_serve, State.ch_setCh_self]
    exact ⟨rfl, rfl, rfl, rfl, rfl, rfl, rfl, rfl, (s.ch c).beginsDrive_enterStartup s.supply m, rfl, rfl,
      s.sameOthers_setCh c _, ⟨rfl, ⟨rfl, rfl, rfl, rfl, rfl⟩,
      State.sameLink_serve ⟨rfl, rfl, rfl, rfl, rfl, rfl, rfl, rfl, rfl⟩⟩, rfl⟩
  · have lost : (m.unattendedClose && !(s.ch c).pd.known) = true := by
      rw [unattended, unknown]
      rfl
    rw [State.dwellExpiry_startup toStartup motion, if_pos lost]
    obtain ⟨chan, noSlot, -, pool, -, told⟩ := s.left_endIdle c .positionLost
    rw [unknown] at told
    rw [chan]
    exact ⟨rfl, rfl, noSlot, pool, told⟩
  · rw [State.dwellExpiry_backoff toBackoff record, if_neg (fun met => away (Decoder.meets_opening.1 met))]
    simp only [State.ch_serve, State.ch_setCh_self]
    exact ⟨rfl, rfl, rfl, rfl, rfl, rfl, s.supply.limit_eq _, rfl, rfl, rfl, rfl, rfl, rfl,
      s.sameOthers_setCh c _, ⟨rfl, ⟨rfl, rfl, rfl, rfl, rfl⟩,
      State.sameLink_serve ⟨rfl, rfl, rfl, rfl, rfl, rfl, rfl, rfl, rfl⟩⟩, rfl⟩
  · rw [State.dwellExpiry_backoff toBackoff record, if_pos (Decoder.meets_opening.2 ⟨known, met⟩)]
    obtain ⟨chan, noSlot, -, pool, -, told⟩ := s.left_endIdle c .reversed
    rw [known] at told
    rw [chan]
    exact ⟨rfl, rfl, rfl, noSlot, pool, told⟩
  · intro k releases n granted
    refine ⟨_, exec_dwellExpiry c s, ?_⟩
    obtain ⟨u, released, sameArbiter, sameDevice, samePool, others⟩ := State.dwellExpiry_releases releases
    obtain ⟨device, lines, supply, clock, effort⟩ := sameDevice
    obtain ⟨-, queue, holders, grants, stays⟩ := State.leaveArbiter_grants s u c slots arbiter (ChState.holding_of_dwell dwells)
      sameArbiter device supply others
    rw [released]
    refine ⟨queue, holders, fun d mem => ?_, stays, fun noneWaits normal e rest head => ?_, ?_, ?_⟩
    · obtain ⟨m, motion, entered⟩ := grants d mem
      refine ⟨m, motion, ?_⟩
      rw [State.ch_serve, entered]
      exact (s.ch d).startup_fields s.supply motion
    · have one : n = 1 := (if_pos normal).trans (State.released_grants_head slots noneWaits normal head)
      refine ⟨?_, queue.trans ?_⟩
      · simp only [granted, one, head]
        rfl
      · change s.arbiter.queue.drop n = rest
        rw [one, head]
        rfl
    · simp [State.SameDevice, device, lines, supply, clock, effort]
    · simp [samePool]

end Sys2Proof.Machine
end

section
/-! PROOFS. A count of a channel that is not driven. -/

namespace Sys2Proof.Machine

theorem exec_count (c : ChanId) (ph : HallPhase) (s : State) : exec (.count c ph) s = .next (s.count c ph).serve := rfl

/-! ## The direction of a count (R21) -/

/-- A step forward along (low, low), (high, low), (high, high), (low, high). -/
theorem Decoder.forward_iff (d : Decoder) (ph : HallPhase) : d.forward ph = true ↔ (d.filtA, d.filtB, ph) ∈
    [(false, false, HallPhase.a), (true, false, HallPhase.b), (true, true, HallPhase.a), (false, true, HallPhase.b)] := by
  cases ph with
  | a => cases a : d.filtA <;> cases b : d.filtB <;> simp [Decoder.forward, a, b]
  | b => cases a : d.filtA <;> cases b : d.filtB <;> simp [Decoder.forward, a, b]

theorem Chan.countDir_closing {k : Chan} {ph : HallPhase} (h : k.pd.forward ph = true ↔ ¬k.ms.active.get .phaseOrder = 1) :
    k.countDir ph = .closing := by
  unfold Chan.countDir ParamSet.on
  refine if_pos ?_
  cases forward : k.pd.forward ph <;> simpa [forward] using h

theorem Chan.countDir_opening {k : Chan} {ph : HallPhase} (h : ¬(k.pd.forward ph = true ↔ ¬k.ms.active.get .phaseOrder = 1)) :
    k.countDir ph = .opening := by
  unfold Chan.countDir ParamSet.on
  refine if_neg ?_
  cases forward : k.pd.forward ph <;> simpa [forward] using h

/-! ## The decoder's update outside a drive (R34) -/

theorem Chan.commanded_undriven {k : Chan} (rests : k.ms.state.driving = false) : k.commanded = none := by
  unfold Chan.commanded
  cases state : k.ms.state with
  | startup | travel | backoff =>
    rw [state] at rests
    cases rests
  | disabled | idle | queued | dwell | fault => rfl

theorem Chan.wantsEvaluation_undriven {k : Chan} (dir : Dir) (rests : k.ms.state.driving = false) : k.wantsEvaluation dir = false := by
  unfold Chan.wantsEvaluation
  rw [Chan.commanded_undriven rests]
  simp

theorem State.afterDecoder_undriven {s : State} {c : ChanId} (ph : HallPhase) (rests : (s.ch c).ms.state.driving = false) :
    s.afterDecoder c ph = s.setCh c ((s.ch c).decodeCount ph) := by
  unfold State.afterDecoder
  dsimp only
  rw [Chan.wantsEvaluation_undriven (k := (s.ch c).decodeCount ph) _ (by rw [Chan.decodeCount_ms]; exact rests)]
  rfl

theorem Chan.decodeCount_ee_undriven {k : Chan} (ph : HallPhase) (rests : k.ms.state.driving = false) : (k.decodeCount ph).ee = k.ee := by
  rw [k.decodeCount_ee ph, if_neg (by simp [rests])]

/-- The filtered levels of both phases. -/
def Decoder.levels (d : Decoder) : Bool × Bool := (d.filtA, d.filtB)

theorem Decoder.levels_countPosition (d : Decoder) (l : Nat) (dir : Dir) : (d.countPosition l dir).levels = d.levels := by
  rw [d.countPosition_eq l dir]
  rfl

theorem Decoder.levels_countRing (d : Decoder) (cd : Option Dir) (dir : Dir) (interval : Nat) :
    (d.countRing cd dir interval).levels = d.levels := by
  cases cd <;> rfl

theorem Decoder.levels_countDrive (d : Decoder) (cd : Option Dir) (dir : Dir) (stallMs : Nat) :
    (d.countDrive cd dir stallMs).levels = d.levels := by
  unfold Decoder.countDrive
  split
  · rfl
  · split <;> rfl

theorem Chan.levels_decodeCount (k : Chan) (ph : HallPhase) : (k.decodeCount ph).pd.levels = (k.pd.flip ph).levels := by
  have counted : (k.decodeCount ph).pd =
      ((((k.pd.flip ph).countPosition (k.ms.active.get .travelLength) (k.countDir ph)).restartTimer.countRing k.commanded
        (k.countDir ph) k.pd.interval.1).countDrive k.commanded (k.countDir ph) (k.ms.active.get .stallTimeout)).countDifference
        (k.countDir ph) := by
    unfold Chan.decodeCount
    dsimp only
    split <;> rfl
  rw [counted]
  calc
    _ = (((k.pd.flip ph).countPosition (k.ms.active.get .travelLength) (k.countDir ph)).restartTimer.countRing k.commanded
        (k.countDir ph) k.pd.interval.1).levels := Decoder.levels_countDrive _ _ _ _
    _ = ((k.pd.flip ph).countPosition (k.ms.active.get .travelLength) (k.countDir ph)).levels := Decoder.levels_countRing _ _ _ _
    _ = (k.pd.flip ph).levels := Decoder.levels_countPosition _ _ _

theorem Chan.decodeCount_filtered (k : Chan) (ph : HallPhase) :
    (k.decodeCount ph).pd.filtA = (if ph = .a then !k.pd.filtA else k.pd.filtA) ∧
      (k.decodeCount ph).pd.filtB = (if ph = .b then !k.pd.filtB else k.pd.filtB) := by
  obtain ⟨-, -, -, -, -, -, -, -, -, -, a, b⟩ := k.pd.flip_fields ph
  have same := k.levels_decodeCount ph
  exact ⟨(congrArg Prod.fst same).trans a, (congrArg Prod.snd same).trans b⟩

theorem State.count_at_rest {s : State} {c : ChanId} (ph : HallPhase) (rests : (s.ch c).ms.state = .disabled ∨
    (s.ch c).ms.state = .idle ∨ (s.ch c).ms.state = .dwell ∨ (s.ch c).ms.state = .fault) :
    s.count c ph = s.setCh c ((s.ch c).decodeCount ph) := by
  have undriven : (s.ch c).ms.state.driving = false := by rcases rests with h | h | h | h <;> rw [h] <;> rfl
  rw [State.count_eq, State.afterDecoder_undriven ph undriven]
  unfold State.countReport
  rw [State.ch_setCh_self, Chan.decodeCount_ms]
  rcases rests with h | h | h | h <;> rw [h]

theorem State.count_queued {s : State} {c : ChanId} (ph : HallPhase) (queued : (s.ch c).ms.state = .queued) :
    s.count c ph = if ((s.ch c).pd.known && !((s.ch c).decodeCount ph).pd.known) = true then
      (s.setCh c ((s.ch c).decodeCount ph)).losePositionQueued c else s.setCh c ((s.ch c).decodeCount ph) := by
  have undriven : (s.ch c).ms.state.driving = false := by rw [queued]; rfl
  rw [State.count_eq, State.afterDecoder_undriven ph undriven]
  unfold State.countReport
  rw [State.ch_setCh_self, Chan.decodeCount_ms, queued]

/-- The loss of position of a QUEUED channel's count ends a waiting closing EXPRESS or GOTO (R157, R170). -/
theorem State.count_queued_ends {s : State} {c : ChanId} {ph : HallPhase} (queued : (s.ch c).ms.state = .queued)
    (lost : (s.ch c).pd.known = true ∧ ¬(s.ch c).countInBounds ph)
    (unattended : (s.ch c).ms.motion.any Motion.unattendedClose = true) :
    s.count c ph = (s.setCh c ((s.ch c).decodeCount ph)).endIdle c .positionLost := by
  rw [State.count_queued ph queued, if_pos (((s.ch c).loses_iff ph).2 lost), State.losePositionQueued, if_pos]
  rw [State.ch_setCh_self, Chan.decodeCount_ms]
  exact ⟨queued, unattended⟩

theorem State.count_queued_stays {s : State} {c : ChanId} {ph : HallPhase} (queued : (s.ch c).ms.state = .queued)
    (stays : ¬(((s.ch c).pd.known = true ∧ ¬(s.ch c).countInBounds ph) ∧
      (s.ch c).ms.motion.any Motion.unattendedClose = true)) :
    s.count c ph = s.setCh c ((s.ch c).decodeCount ph) := by
  rw [State.count_queued ph queued]
  by_cases lost : ((s.ch c).pd.known && !((s.ch c).decodeCount ph).pd.known) = true
  · rw [if_pos lost, State.losePositionQueued, if_neg]
    rw [State.ch_setCh_self, Chan.decodeCount_ms]
    rintro ⟨-, unattended⟩
    exact stays ⟨((s.ch c).loses_iff ph).1 lost, unattended⟩
  · rw [if_neg lost]

/-- The cells of a decoder that a count outside a drive writes, and those it keeps. -/
structure Chan.CountedAtRest (k u : Chan) (ph : HallPhase) : Prop where
  position : k.PositionFollows u ph
  timer : u.pd.timer = 0
  overflow : u.pd.overflow = 0
  ring : u.pd.ring = pushLast 4 k.pd.ring (if k.pd.overflow = 0 then max 1 k.pd.timer else 65535)
  difference : u.pd.difference = max (-32767) (min 32767 (k.pd.difference + if k.countDir ph = .closing then -1 else 1))
  confirm : u.pd.confirm = k.pd.confirm
  watchdog : u.pd.watchdog = k.pd.watchdog
  travel : u.pd.travel = k.pd.travel
  ms : u.ms = k.ms
  out : u.out = k.out
  ee : u.ee = k.ee
  rps : u.rps = k.rps

theorem Chan.countedAtRest {k : Chan} (ph : HallPhase) (rests : k.ms.state.driving = false) : k.CountedAtRest (k.decodeCount ph) ph := by
  obtain ⟨timer, overflow, travel, -, difference, ring, confirm, watchdog⟩ := k.decodeCount_pd ph
  rw [Chan.commanded_undriven rests] at ring confirm watchdog
  exact ⟨k.positionFollows_decodeCount ph, timer, overflow, ring, difference, confirm, watchdog, travel, k.decodeCount_ms ph,
    k.decodeCount_out ph, Chan.decodeCount_ee_undriven ph rests, k.decodeCount_rps ph⟩

theorem pushLast_short {α : Type} {n : Nat} {xs : List α} (x : α) (short : xs.length < n) : pushLast n xs x = xs ++ [x] := by
  unfold pushLast
  simp [Nat.sub_eq_zero_of_le short]

/-- A change of one channel, the transmitter served: the rest of the part. -/
theorem State.sameShared_setCh (s : State) (c : ChanId) (k : Chan) : s.SameShared (s.setCh c k).serve :=
  ⟨rfl, ⟨rfl, rfl, rfl, rfl, rfl⟩, State.sameLink_serve ⟨rfl, rfl, rfl, rfl, rfl, rfl, rfl, rfl, rfl⟩⟩

/-- Settles O47. -/
theorem countAtRestMovesThePosition : Obligations.CountAtRestMovesThePosition := by
  refine ⟨fun k ph => ?_, fun s c ph rests => ?_, fun s c ph queued => ?_⟩
  · intro forward swapped
    have isForward := k.pd.forward_iff ph
    refine ⟨fun f n => Chan.countDir_closing ⟨fun _ => n, fun _ => isForward.2 f⟩,
      fun f n => Chan.countDir_opening fun h => f (isForward.1 (h.2 n)),
      fun f n => Chan.countDir_opening fun h => h.1 (isForward.2 f) n,
      fun f n => Chan.countDir_closing ⟨fun h => absurd (isForward.1 h) f, fun h => absurd n h⟩⟩
  · intro d l step interval
    have undriven : (s.ch c).ms.state.driving = false := by rcases rests with h | h | h | h <;> rw [h] <;> rfl
    refine ⟨_, exec_count c ph s, ?_⟩
    rw [State.count_at_rest ph rests]
    obtain ⟨position, timer, overflow_, ring, difference, confirm, watchdog, travel, ms, out, ee, rps⟩ :=
      Chan.countedAtRest ph undriven
    obtain ⟨within, beyond, unknown⟩ := position
    obtain ⟨filtA, filtB⟩ := (s.ch c).decodeCount_filtered ph
    simp only [State.ch_serve, State.ch_setCh_self]
    refine ⟨fun known low high => within known ⟨low, high⟩, fun known out_ => beyond known fun h => ?_, unknown, timer, overflow_,
      fun short => ring.trans (pushLast_short _ short), fun x y z w full => ?_, difference, confirm, watchdog, travel, filtA, filtB,
      ms, out, ee, rps, s.sameOthers_setCh c _, s.sameShared_setCh c _, rfl⟩
    · obtain ⟨low, high⟩ := h
      rcases out_ with h | h
      · exact absurd low (not_le.2 h)
      · exact absurd high (not_le.2 h)
    · rw [ring, show (s.ch c).pd.ring = [x, y, z, w] from full]
      rfl
  · intro k interval lost
    have undriven : (s.ch c).ms.state.driving = false := by rw [queued]; rfl
    obtain ⟨position, timer, overflow_, ring, difference, confirm, watchdog, travel, ms, out, ee, rps⟩ :=
      Chan.countedAtRest ph undriven
    refine ⟨fun stays => ⟨_, exec_count c ph s, ?_⟩, fun loses unattended noSlot => ⟨_, exec_count c ph s, ?_⟩⟩
    · rw [State.count_queued_stays queued stays]
      simp only [State.ch_serve, State.ch_setCh_self]
      exact ⟨position, timer, overflow_, ring, difference, confirm, watchdog, travel, ms, out, ee, rps, s.sameOthers_setCh c _,
        s.sameShared_setCh c _, rfl⟩
    · rw [State.count_queued_ends queued loses unattended]
      obtain ⟨chan, others, device, pool, arbiter, link⟩ :=
        State.endIdle_unheld (s := s.setCh c ((s.ch c).decodeCount ph)) (c := c) .positionLost noSlot
      obtain ⟨place, unknown⟩ := position.2.1 loses.1 loses.2
      rw [State.ch_setCh_self] at chan link
      rw [place, unknown] at link
      simp only [State.ch_serve, State.serve_arbiter, State.serve_pool, chan, arbiter, pool]
      have reversal : ((s.ch c).decodeCount ph).ms.reversal = (s.ch c).ms.reversal := congrArg Sequencer.reversal ms
      refine ⟨rfl, rfl, rfl, rfl, place, unknown, rfl, reversal, rps, rfl, rfl, fun waits => ?_, fun d other => ?_,
        device, State.sameLink_serve ?_, rfl⟩
      · rw [State.serve_link, Link.serve_notices_of_wait s waits _ (by rw [link]; rfl) (by rw [link]; rfl), link]
        exact Vector.getElem_set_self _
      · exact (others d other).trans (State.ch_setCh_ne _ _ other)
      · unfold State.SameLink
        rw [link]
        exact ⟨rfl, rfl, rfl, rfl, rfl, rfl, rfl, rfl, rfl⟩

end Sys2Proof.Machine
end

section
/-! PROOFS. A count of a driven channel: what the decoder and the report make of it, whatever the report ends. -/

namespace Sys2Proof.Machine

/-! ## The channel drives in a direction -/

/-- A channel drives: in BACKOFF it opens, in STARTUP and TRAVEL it goes its motion's way. -/
def Chan.Drives (k : Chan) (drive : Dir) : Prop :=
  (k.ms.state = .backoff ∧ drive = .opening) ∨
    ((k.ms.state = .startup ∨ k.ms.state = .travel) ∧ k.ms.motion.map Motion.dir = some drive)

theorem Chan.Drives.commanded {k : Chan} {drive : Dir} (h : k.Drives drive) : k.commanded = some drive := by
  unfold Chan.commanded
  rcases h with ⟨state, rfl⟩ | ⟨state | state, dir⟩
  · rw [state]
  · rw [state]
    exact dir
  · rw [state]
    exact dir

theorem Chan.Drives.driving {k : Chan} {drive : Dir} (h : k.Drives drive) : k.ms.state.driving = true := by
  rcases h with ⟨state, -⟩ | ⟨state | state, -⟩ <;> rw [state] <;> rfl

/-- Whether the report of a count raises DRIFT for a closing EXPRESS or GOTO that has lost its position (R157). -/
def Chan.LeavesBounds (k : Chan) (ph : HallPhase) : Prop :=
  k.pd.known = true ∧ ¬k.countInBounds ph ∧ k.ms.state ≠ .backoff ∧ k.ms.motion.any Motion.unattendedClose = true

theorem State.count_running {s : State} {c : ChanId} (ph : HallPhase)
    (running : (s.ch c).ms.state = .startup ∨ (s.ch c).ms.state = .travel) :
    s.count c ph = (s.afterDecoder c ph).runningReport c ((s.ch c).commanded == some ((s.ch c).countDir ph))
      ((s.ch c).pd.known && !((s.ch c).decodeCount ph).pd.known) (s.ch c).overflowStop := by
  rw [State.count_eq, State.countReport, State.ch_afterDecoder_self, Chan.decodeCount_ms]
  rcases running with state | state <;> rw [state]

theorem State.count_backoff {s : State} {c : ChanId} (ph : HallPhase) (state : (s.ch c).ms.state = .backoff) :
    s.count c ph = (s.afterDecoder c ph).backoffReport c (s.ch c).overflowStop := by
  rw [State.count_eq, State.countReport, State.ch_afterDecoder_self, Chan.decodeCount_ms, state]

/-- The decoder's part of a count leaves the rest of the part alone, but for the list of requests. -/
structure State.DecoderFrame (s t : State) : Prop where
  device : t.device = s.device
  lines : t.lines = s.lines
  supply : t.supply = s.supply
  clock : t.clock = s.clock
  arbiter : t.arbiter = s.arbiter
  link : t.link = s.link
  pool : t.pool = s.pool
  road : t.effort.road = s.effort.road
  hold : t.effort.hold = s.effort.hold

theorem State.afterDecoder_frame (s : State) (c : ChanId) (ph : HallPhase) : s.DecoderFrame (s.afterDecoder c ph) := by
  rw [s.afterDecoder_eq c ph]
  exact ⟨rfl, rfl, rfl, rfl, rfl, rfl, rfl, rfl, rfl⟩

/-- Whatever a count of a driven channel ends, the report changes the channel, pool and notices alone. -/
theorem State.count_driven {s : State} {c : ChanId} {drive : Dir} (ph : HallPhase) (drives : (s.ch c).Drives drive) :
    ∃ S' u, s.count c ph = S'.setCh c u ∧ (s.afterDecoder c ph).ReportFrame S' c ∧
      ((s.ch c).decodeCount ph).ReportKeeps u ((s.ch c).LeavesBounds ph) := by
  rcases drives with ⟨state, -⟩ | ⟨running, dir⟩
  · obtain ⟨S', u, reported, frame, keeps⟩ := State.backoffReport_keeps (s.afterDecoder c ph) c (s.ch c).overflowStop
      (by rw [State.ch_afterDecoder_self, Chan.decodeCount_ms]; exact state)
    rw [State.ch_afterDecoder_self] at keeps
    exact ⟨S', u, (State.count_backoff ph state).trans reported, frame,
      keeps.of_iff ⟨False.elim, fun ⟨_, _, other, _⟩ => other state⟩⟩
  · obtain ⟨m, motion, -⟩ := Option.map_eq_some_iff.1 dir
    obtain ⟨S', u, reported, frame, keeps⟩ := State.runningReport_keeps (s.afterDecoder c ph) c m
      ((s.ch c).commanded == some ((s.ch c).countDir ph)) ((s.ch c).pd.known && !((s.ch c).decodeCount ph).pd.known)
      (s.ch c).overflowStop (by rw [State.ch_afterDecoder_self, Chan.decodeCount_ms]; exact running)
      (by rw [State.ch_afterDecoder_self, Chan.decodeCount_ms]; exact motion)
    rw [State.ch_afterDecoder_self] at keeps
    have other : (s.ch c).ms.state ≠ .backoff := by rcases running with h | h <;> simp [h]
    refine ⟨S', u, (State.count_running ph running).trans reported, frame, keeps.of_iff ?_⟩
    rw [(s.ch c).loses_iff ph, Chan.LeavesBounds, motion]
    exact ⟨fun ⟨⟨known, beyond⟩, unattended⟩ => ⟨known, beyond, other, unattended⟩,
      fun ⟨known, beyond, _, unattended⟩ => ⟨⟨known, beyond⟩, unattended⟩⟩

/-! ## The request of a count (R29) -/

theorem Decoder.interval_overflowed (d : Decoder) : d.interval.2 = decide (d.overflow ≠ 0) := by
  unfold Decoder.interval
  by_cases h : d.overflow = 0
  · simp [h]
  · simp [h]

theorem Chan.evalRequest_decodeCount {k : Chan} {ph : HallPhase} (c : ChanId) (known : k.pd.known = true) (within : k.countInBounds ph) :
    (k.decodeCount ph).evalRequest c k.pd.interval.2 =
      ⟨c, k.pd.drive, decide (k.ms.state = .travel), k.counted ph, (k.decodeCount ph).pd.ring.sum, decide (k.pd.overflow ≠ 0)⟩ := by
  obtain ⟨-, -, -, drive, -⟩ := k.decodeCount_pd ph
  obtain ⟨position, -⟩ := (k.positionFollows_decodeCount ph).1 known within
  unfold Chan.evalRequest
  rw [drive, position, k.pd.interval_overflowed, Chan.decodeCount_ms, List.sum_eq_foldl]
  rfl

/-! ## The flags of a count (R27, R157) -/

theorem Chan.sticky_decodeCount {k : Chan} (ph : HallPhase) (driving : k.ms.state.driving = true) (x : Condition) :
    (k.decodeCount ph).ee.sticky.get x = true ↔ k.ee.sticky.get x = true ∨ (x = .periodOverflow ∧ k.pd.overflow ≠ 0) := by
  rw [k.decodeCount_ee ph]
  by_cases overflowed : k.pd.overflow = 0
  · simp [overflowed]
  · rw [if_pos ⟨overflowed, driving⟩]
    cases x <;> simp [ConditionFlags.get, overflowed]

theorem Chan.lastStep_decodeCount (k : Chan) (ph : HallPhase) : (k.decodeCount ph).ee.lastStep = k.ee.lastStep := by
  rw [k.decodeCount_ee_sticky ph]

/-- What every count of a driven channel does (first part of the statement on counts of a drive). -/
theorem count_of_drive (s : State) (c : ChanId) (ph : HallPhase) (drive : Dir) (drives : (s.ch c).Drives drive) :
    let k := s.ch c
    let dir := k.countDir ph
    let interval := if k.pd.overflow = 0 then max 1 k.pd.timer else 65535
    let ring := if dir = drive then pushLast 4 k.pd.ring interval else []
    let asked := k.ms.state ≠ .backoff ∧ drive = .closing ∧ dir = .closing ∧ k.pd.known = true ∧ k.countInBounds ph ∧
      ring.length = 4 ∧ k.ms.motion ≠ some (.normalize .seek)
    ∃ t, exec (.count c ph) s = .next t ∧ k.PositionFollows (t.ch c) ph ∧ (t.ch c).pd.timer = 0 ∧
      (t.ch c).pd.overflow = 0 ∧ (t.ch c).pd.ring = ring ∧
      (t.ch c).pd.confirm = (if dir = drive then min 2 (k.pd.confirm + 1) else if k.pd.confirm = 2 then 2 else 0) ∧
      (t.ch c).pd.difference = max (-32767) (min 32767 (k.pd.difference + if dir = .closing then -1 else 1)) ∧
      ((t.ch c).ms.state.driving = true → (t.ch c).pd.watchdog =
        if dir = drive then some (k.ms.active.get .stallTimeout * 1000) else k.pd.watchdog) ∧
      ((t.ch c).ee.sticky.periodOverflow = true ↔ k.ee.sticky.periodOverflow = true ∨ k.pd.overflow ≠ 0) ∧
      ((t.ch c).ee.sticky.drift = true ↔ k.ee.sticky.drift = true ∨ k.LeavesBounds ph) ∧
      (∀ x : Condition, x ≠ .periodOverflow → x ≠ .drift → (t.ch c).ee.sticky.get x = k.ee.sticky.get x) ∧
      (t.ch c).ee.lastStep = k.ee.lastStep ∧ (t.ch c).ms.taint = k.ms.taint ∧
      (asked → t.effort = { s.effort with requests := s.effort.requests ++
        [⟨c, k.pd.drive, decide (k.ms.state = .travel), k.counted ph, ring.sum, decide (k.pd.overflow ≠ 0)⟩] }) ∧
      (¬asked → t.effort = s.effort) ∧ s.SameOthers t c ∧ t.device = s.device ∧ t.lines = s.lines ∧
      t.supply = s.supply ∧ t.clock = s.clock ∧ t.arbiter = s.arbiter ∧ s.SameLink t := by
  intro k dir interval ring asked
  obtain ⟨S', u, counted, frame, keeps⟩ := State.count_driven ph drives
  obtain ⟨others, device, lines, supply, clock, arbiter, link, effort⟩ := frame
  obtain ⟨pd, watchdog, sticky, last, taint⟩ := keeps
  obtain ⟨timer, overflow_, -, -, difference, ringIs, confirm, watched⟩ := k.decodeCount_pd ph
  have asks : (k.decodeCount ph).wantsEvaluation (k.countDir ph) = true ↔ asked :=
    Chan.wantsEvaluation_iff k ph drive drives drives.commanded
  have same : some drive = some (k.countDir ph) ↔ k.countDir ph = drive := by rw [Option.some.injEq, eq_comm]
  simp only [Chan.Drives.commanded (k := k) drives, Option.some_ne_none, false_or, if_false, same] at ringIs confirm watched
  refine ⟨_, exec_count c ph s, ?_⟩
  rw [counted]
  have chan : (S'.setCh c u).serve.ch c = u := State.ch_setCh_self S' c u
  rw [chan]
  have flags : ∀ x, u.ee.sticky.get x = true ↔
      (k.ee.sticky.get x = true ∨ (x = .periodOverflow ∧ k.pd.overflow ≠ 0)) ∨ (x = .drift ∧ k.LeavesBounds ph) :=
    fun x => (sticky x).trans (or_congr_left (Chan.sticky_decodeCount ph drives.driving x))
  have position := k.positionFollows_decodeCount ph
  have decoded := s.afterDecoder_frame c ph
  refine ⟨?_, by rw [pd]; exact timer, by rw [pd]; exact overflow_, by rw [pd]; exact ringIs, by rw [pd]; exact confirm,
    by rw [pd]; exact difference, fun driving => (watchdog driving).trans watched, ?_, ?_, fun x notOverflow notDrift => ?_,
    last.trans (k.lastStep_decodeCount ph), taint.trans (congrArg Sequencer.taint (k.decodeCount_ms ph)), fun h => ?_, fun h => ?_,
    fun d other => ?_, ?_, ?_, ?_, ?_, ?_, ?_⟩
  · unfold Chan.PositionFollows at position ⊢
    rw [pd]
    exact position
  · simpa [ConditionFlags.get] using flags .periodOverflow
  · simpa [ConditionFlags.get] using flags .drift
  · have := flags x
    simp only [notOverflow, notDrift, false_and, or_false] at this
    exact Bool.eq_iff_iff.2 this
  · have within := h.2.2.2.2.1
    have known := h.2.2.2.1
    change S'.effort = _
    rw [effort, State.afterDecoder_eq]
    dsimp only
    rw [if_pos (asks.2 h), Chan.evalRequest_decodeCount c known within, ringIs]
  · change S'.effort = _
    rw [effort, State.afterDecoder_eq]
    dsimp only
    rw [if_neg (fun asked' => h (asks.1 asked')), List.append_nil]
  · exact ((State.ch_setCh_ne S' u other).trans (others d other)).trans (s.ch_afterDecoder c d ph other)
  · exact device.trans decoded.device
  · exact lines.trans decoded.lines
  · exact supply.trans decoded.supply
  · exact clock.trans decoded.clock
  · exact arbiter.trans decoded.arbiter
  · unfold State.SameLink at link
    rw [decoded.link] at link
    exact State.sameLink_serve link

end Sys2Proof.Machine
end

section
/-! PROOFS. A count of a driven channel: the report that ends the drive, or lets it go on. -/

namespace Sys2Proof.Machine

/-! ## What a channel keeps of counters and profile at the end of a drive -/

/-- Counters, marker and profile stand as before, but for the scratch. -/
def Chan.Kept (k u : Chan) : Prop :=
  u.ms.reversal = k.ms.reversal ∧ u.ms.override = k.ms.override ∧
    u.ms.marker = k.ms.marker ∧ u.pd.travel = k.pd.travel ∧ u.rps.cells = k.rps.cells ∧ u.rps.summary = k.rps.summary

theorem Chan.Kept.trans {k u v : Chan} (h : k.Kept u) (g : u.Kept v) : k.Kept v := by
  obtain ⟨reversal, override, marker, travel, cells, summary⟩ := h
  obtain ⟨reversal', override', marker', travel', cells', summary'⟩ := g
  exact ⟨reversal'.trans reversal, override'.trans override, marker'.trans marker, travel'.trans travel, cells'.trans cells,
    summary'.trans summary⟩

theorem Chan.kept_enterDwell (k : Chan) (x : Successor) : k.Kept (k.enterDwell x) := ⟨rfl, rfl, rfl, rfl, rfl, rfl⟩

theorem Chan.kept_decodeCount (k : Chan) (ph : HallPhase) : k.Kept (k.decodeCount ph) := by
  obtain ⟨-, -, travel, -⟩ := k.decodeCount_pd ph
  unfold Chan.Kept
  rw [Chan.decodeCount_ms, Chan.decodeCount_rps]
  exact ⟨rfl, rfl, rfl, travel, rfl, rfl⟩

/-- Blanking changes the blanking count, the state, and the window at the entry into TRAVEL alone. -/
structure Chan.Blanked (k u : Chan) : Prop where
  motion : u.ms.motion = k.ms.motion
  lease : u.ms.lease = k.ms.lease
  active : u.ms.active = k.ms.active
  taint : u.ms.taint = k.ms.taint
  rps : u.rps = k.rps
  pd : u.pd = k.pd
  kept : k.Kept u

theorem Chan.blanked_countBlanking (k : Chan) : k.Blanked k.countBlanking := by
  unfold Chan.countBlanking Chan.enterTravel
  dsimp only
  split
  · exact ⟨rfl, rfl, rfl, rfl, rfl, rfl, rfl, rfl, rfl, rfl, rfl, rfl⟩
  · exact ⟨rfl, rfl, rfl, rfl, rfl, rfl, rfl, rfl, rfl, rfl, rfl, rfl⟩

/-! ## The ends of travel at a count (R149) -/

/-- What an end of travel at a count makes of a channel. -/
def Chan.ended (k : Chan) : TravelEnd → Chan
  | .closedEnd => k.completeClosed false false
  | .idle r => k.enterDwell (.idle r)
  | .openDone => (k.enterDwell .startup).setMotion (.normalize .fill)

theorem State.takeEnd_ended {s : State} {c : ChanId} {e : TravelEnd}
    (soft : e = .closedEnd → (s.ch c).ms.active.get .endMode = 1) : s.takeEnd c e = s.setCh c ((s.ch c).ended e) := by
  rw [State.takeEnd_eq s c e soft]
  cases e <;> rfl

theorem State.progress_ends {s : State} {c : ChanId} {m : Motion} {e : TravelEnd} (motion : (s.ch c).ms.motion = some m)
    (ends : (s.ch c).travelEnd m = some e) : s.progress c true = s.setCh c ((s.ch c).countBlanking.ended e) := by
  rw [State.progress_eq s c m motion, ends]
  dsimp only
  rw [State.takeEnd_ended, State.ch_setCh_self, State.setCh_setCh]
  rintro rfl
  rw [State.ch_setCh_self, Chan.countBlanking_active]
  exact Chan.soft_of_closedEnd _ _ ends

theorem State.progress_goes_on {s : State} {c : ChanId} {m : Motion} (motion : (s.ch c).ms.motion = some m)
    (goesOn : (s.ch c).travelEnd m = none) : s.progress c true = s.setCh c (s.ch c).countBlanking := by
  rw [State.progress_eq s c m motion, goesOn]

theorem Chan.dwellsToward_ended_openDone (k : Chan) : (k.ended .openDone).DwellsToward .startup := by
  obtain ⟨state, successor, mode, applied, step, pwm, watchdog, -, timer⟩ := k.dwellsToward_enterDwell .startup
  exact ⟨state, successor, mode, applied, step, pwm, watchdog, fun other => absurd rfl other, timer⟩

theorem Chan.kept_ended_openDone (k : Chan) : k.Kept (k.ended .openDone) := ⟨rfl, rfl, rfl, rfl, rfl, rfl⟩

/-- An adaptation reads the profile, the taint flag and the active set alone. -/
theorem Chan.adapt_congr {k u : Chan} (unknown drift filling : Bool) (rps : u.rps = k.rps) (taint : u.ms.taint = k.ms.taint)
    (active : u.ms.active = k.ms.active) : (u.adapt unknown drift filling).rps = (k.adapt unknown drift filling).rps := by
  unfold Chan.adapt
  dsimp only
  rw [rps, taint, active]
  split <;> rfl

/-- The closed end's counters, and its profile: the adapted one. -/
theorem Chan.completeClosed_spec (k : Chan) (unknown drift : Bool) :
    let u := k.completeClosed unknown drift
    u.DwellsToward (.idle .completedClosed) ∧ u.pd.travel = min 65535 (k.pd.travel + 1) ∧ u.ms.reversal = 0 ∧
      u.ms.override = false ∧ u.rps = (k.adapt unknown drift k.filling).rps ∧ u.pd.position = k.pd.position ∧
      u.pd.known = k.pd.known ∧ u.ee.sticky = k.ee.sticky := by
  intro u
  obtain ⟨pd, ms, ee, -⟩ := k.countClose.adapt_fields unknown drift k.filling
  obtain ⟨cleared, -⟩ := k.countClose.adapt_rps unknown drift k.filling
  have profile : (k.countClose.adapt unknown drift k.filling).rps = (k.adapt unknown drift k.filling).rps :=
    Chan.adapt_congr (k := k) (u := k.countClose) unknown drift k.filling rfl rfl rfl
  refine ⟨Chan.dwellsToward_enterDwell _ _, congrArg Decoder.travel pd, congrArg Sequencer.reversal ms,
    congrArg Sequencer.override ms, ?_, (congrArg Decoder.position pd).trans rfl, (congrArg Decoder.known pd).trans rfl, congrArg Excess.sticky ee⟩
  rw [← profile]
  exact congrArg (fun sc => { (k.countClose.adapt unknown drift k.filling).rps with scratch := sc }) cleared.symm

/-! ## The report of a running channel (R27, R148, R149, R157) -/

section
variable {s : State} {c : ChanId} {m : Motion} {commanded lost : Bool}

theorem State.runningReport_progress (quiet : (lost && (s.ch c).ms.motion.any Motion.unattendedClose) = false) :
    s.runningReport c commanded lost false = s.progress c commanded := by
  unfold State.runningReport
  rw [quiet]
  rfl

theorem State.runningReport_drift (left : (lost && (s.ch c).ms.motion.any Motion.unattendedClose) = true) :
    s.runningReport c commanded lost false = (s.setCh c ((s.ch c).raise .drift)).conditionStop c .drift := by
  unfold State.runningReport
  rw [left]
  rfl

theorem State.runningReport_race_drift (left : (lost && (s.ch c).ms.motion.any Motion.unattendedClose) = true) :
    ∃ x, (x = .drift ∨ x = .periodOverflow) ∧ s.runningReport c commanded lost true =
      (s.setCh c ((s.ch c).raise .drift)).countRace.conditionStop c x := by
  unfold State.runningReport
  rw [left]
  refine ⟨_, ?_, rfl⟩
  cases Config.raceFirst s.races
  · exact .inr rfl
  · exact .inl rfl

theorem State.runningReport_overflow (quiet : (lost && (s.ch c).ms.motion.any Motion.unattendedClose) = false)
    (noEnd : (commanded && (s.endAtCount c).isSome) = false) :
    s.runningReport c commanded lost true = s.conditionStop c .periodOverflow := by
  unfold State.runningReport
  rw [quiet]
  dsimp only
  rw [if_neg Bool.false_ne_true, if_neg (by rw [noEnd]; exact Bool.false_ne_true)]

theorem State.runningReport_race_end (quiet : (lost && (s.ch c).ms.motion.any Motion.unattendedClose) = false)
    (ends : (s.endAtCount c).isSome = true) :
    s.runningReport c true lost true = s.countRace.conditionStop c .periodOverflow ∨
      s.runningReport c true lost true = s.countRace.progress c true := by
  unfold State.runningReport
  rw [quiet]
  dsimp only
  rw [if_neg Bool.false_ne_true, if_pos (by rw [ends]; rfl)]
  cases Config.raceFirst s.races
  · exact .inr rfl
  · exact .inl rfl

end

end Sys2Proof.Machine
end

section
/-! PROOFS. A count of a drive, as a whole. -/

namespace Sys2Proof.Machine

/-! ## What a report makes of the part -/

theorem State.DecoderFrame.setCh {s t : State} (h : s.DecoderFrame t) (c : ChanId) (k : Chan) : s.DecoderFrame (t.setCh c k) := by
  obtain ⟨device, lines, supply, clock, arbiter, link, pool, road, hold⟩ := h
  exact ⟨device, lines, supply, clock, arbiter, link, pool, road, hold⟩

theorem State.DecoderFrame.countRace {s t : State} (h : s.DecoderFrame t) : s.DecoderFrame t.countRace := by
  obtain ⟨device, lines, supply, clock, arbiter, link, pool, road, hold⟩ := h
  exact ⟨device, lines, supply, clock, arbiter, link, pool, road, hold⟩

/-- A count that makes a condition stop. -/
def State.CountStops (s : State) (c : ChanId) (ph : HallPhase) (x : Condition) : Prop :=
  ∃ t, exec (.count c ph) s = .next t ∧ (t.ch c).DwellsToward (.fault x) ∧ (s.ch c).Kept (t.ch c) ∧
    s.RecordTaken t (s.conditionRecord c x (t.ch c).pd.position (t.ch c).pd.known)

/-- A count that ends the drive in a DWELL toward a successor, no record taken. -/
def State.CountEnds (s : State) (c : ChanId) (ph : HallPhase) (x : Successor) (more : Chan → Prop) : Prop :=
  ∃ t, exec (.count c ph) s = .next t ∧ (t.ch c).DwellsToward x ∧ more (t.ch c) ∧ t.pool = s.pool

theorem State.CountEnds.imp {s : State} {c : ChanId} {ph : HallPhase} {x : Successor} {more less : Chan → Prop}
    (h : s.CountEnds c ph x more) (weaker : ∀ u, more u → less u) : s.CountEnds c ph x less := by
  obtain ⟨t, run, dwells, holds, pool⟩ := h
  exact ⟨t, run, dwells, weaker _ holds, pool⟩

/-- The channel a report judges: the decoder has updated it, and the report may have raised DRIFT. -/
structure Chan.Reported (k u : Chan) : Prop where
  ms : u.ms = k.ms
  out : u.out = k.out
  rps : u.rps = k.rps
  travel : u.pd.travel = k.pd.travel

theorem Chan.reported_decodeCount (k : Chan) (ph : HallPhase) : k.Reported (k.decodeCount ph) := by
  obtain ⟨-, -, travel, -⟩ := k.decodeCount_pd ph
  exact ⟨k.decodeCount_ms ph, k.decodeCount_out ph, k.decodeCount_rps ph, travel⟩

theorem Chan.reported_drift (k : Chan) (ph : HallPhase) : k.Reported ((k.decodeCount ph).raise .drift) := by
  obtain ⟨ms, out, rps, travel⟩ := k.reported_decodeCount ph
  exact ⟨ms, out, rps, travel⟩

theorem State.countStops_of {s S : State} {c : ChanId} {ph : HallPhase} {x : Condition} (counted : s.count c ph = S.conditionStop c x)
    (frame : s.DecoderFrame S) (chan : (s.ch c).Reported (S.ch c)) (driving : (s.ch c).ms.state.driving = true) :
    s.CountStops c ph x := by
  obtain ⟨-, -, supply, clock, -, link, pool, road, hold⟩ := frame
  obtain ⟨ms, out, rps, travel⟩ := chan
  refine ⟨_, (exec_count c ph s).trans (by rw [counted]), ?_⟩
  exact State.conditionStop_report s S c x (S.ch c) (s.ch c) rfl pool link (by rw [ms]; exact driving) clock supply road hold rfl
    ms out rps travel

theorem State.countEnds_of {s S : State} {c : ChanId} {ph : HallPhase} {u : Chan} {x : Successor} {more : Chan → Prop}
    (counted : s.count c ph = S.setCh c u) (frame : s.DecoderFrame S) (dwells : u.DwellsToward x) (holds : more u) :
    s.CountEnds c ph x more := by
  refine ⟨_, (exec_count c ph s).trans (by rw [counted]), ?_⟩
  simp only [State.ch_serve, State.ch_setCh_self]
  exact ⟨dwells, holds, frame.pool⟩

/-! ## The report of a running channel, by what it meets -/

section
variable {s : State} {c : ChanId} {ph : HallPhase} {m : Motion}

/-- The count takes a closing EXPRESS or GOTO out of its bounds. -/
def Chan.Loses (k : Chan) (ph : HallPhase) (m : Motion) : Prop :=
  k.pd.known = true ∧ ¬k.countInBounds ph ∧ m.unattendedClose = true

theorem Chan.loses_eq {k : Chan} (motion : k.ms.motion = some m) :
    ((k.pd.known && !(k.decodeCount ph).pd.known) && (k.decodeCount ph).ms.motion.any Motion.unattendedClose) = true ↔
      k.Loses ph m := by
  rw [Bool.and_eq_true, k.loses_iff ph, Chan.decodeCount_ms, motion, and_assoc]
  rfl

theorem Chan.quiet_of_not_loses {k : Chan} (motion : k.ms.motion = some m) (quiet : ¬k.Loses ph m) :
    ((k.pd.known && !(k.decodeCount ph).pd.known) && (k.decodeCount ph).ms.motion.any Motion.unattendedClose) = false :=
  Bool.eq_false_iff.2 (fun h => quiet ((Chan.loses_eq motion).1 h))

/-- The end of travel a count in the commanded direction meets. -/
def Chan.Meets (k : Chan) (ph : HallPhase) (m : Motion) (e : TravelEnd) : Prop :=
  k.countDir ph = m.dir ∧ (k.decodeCount ph).travelEnd m = some e

theorem Chan.drives_of_running {k : Chan} (running : k.ms.state = .startup ∨ k.ms.state = .travel) (motion : k.ms.motion = some m) :
    k.Drives m.dir := .inr ⟨running, congrArg (Option.map Motion.dir) motion⟩

theorem Chan.commanded_with {k : Chan} (running : k.ms.state = .startup ∨ k.ms.state = .travel) (motion : k.ms.motion = some m)
    (along : k.countDir ph = m.dir) : (k.commanded == some (k.countDir ph)) = true := by
  rw [(Chan.drives_of_running running motion).commanded, along]
  exact beq_self_eq_true _

theorem Chan.commanded_against {k : Chan} (running : k.ms.state = .startup ∨ k.ms.state = .travel) (motion : k.ms.motion = some m)
    (against : k.countDir ph ≠ m.dir) : (k.commanded == some (k.countDir ph)) = false := by
  rw [(Chan.drives_of_running running motion).commanded]
  exact beq_false_of_ne fun same => against (Option.some.inj same).symm

theorem State.decoded_motion (motion : (s.ch c).ms.motion = some m) : ((s.afterDecoder c ph).ch c).ms.motion = some m := by
  rw [State.ch_afterDecoder_self, Chan.decodeCount_ms]
  exact motion

variable (running : (s.ch c).ms.state = .startup ∨ (s.ch c).ms.state = .travel) (motion : (s.ch c).ms.motion = some m)
include running motion

theorem State.count_against (against : (s.ch c).countDir ph ≠ m.dir) (quiet : ¬(s.ch c).Loses ph m)
    (noStop : (s.ch c).overflowStop = false) : s.count c ph = s.afterDecoder c ph := by
  rw [State.count_running ph running, noStop, State.runningReport_progress, Chan.commanded_against running motion against,
    State.progress_against]
  rw [State.ch_afterDecoder_self]
  exact Chan.quiet_of_not_loses motion quiet

theorem State.count_with (along : (s.ch c).countDir ph = m.dir) (quiet : ¬(s.ch c).Loses ph m)
    (noStop : (s.ch c).overflowStop = false) : s.count c ph = (s.afterDecoder c ph).progress c true := by
  rw [State.count_running ph running, noStop, State.runningReport_progress, Chan.commanded_with running motion along]
  rw [State.ch_afterDecoder_self]
  exact Chan.quiet_of_not_loses motion quiet

theorem State.count_goes_on (along : (s.ch c).countDir ph = m.dir) (goesOn : ((s.ch c).decodeCount ph).travelEnd m = none)
    (quiet : ¬(s.ch c).Loses ph m) (noStop : (s.ch c).overflowStop = false) :
    s.count c ph = (s.afterDecoder c ph).setCh c ((s.ch c).decodeCount ph).countBlanking := by
  rw [State.count_with running motion along quiet noStop,
    State.progress_goes_on (State.decoded_motion motion) (by rw [State.ch_afterDecoder_self]; exact goesOn),
    State.ch_afterDecoder_self]

theorem State.count_meets {e : TravelEnd} (meets : (s.ch c).Meets ph m e) (quiet : ¬(s.ch c).Loses ph m)
    (noStop : (s.ch c).overflowStop = false) :
    s.count c ph = (s.afterDecoder c ph).setCh c (((s.ch c).decodeCount ph).countBlanking.ended e) := by
  obtain ⟨along, ends⟩ := meets
  rw [State.count_with running motion along quiet noStop,
    State.progress_ends (State.decoded_motion motion) (by rw [State.ch_afterDecoder_self]; exact ends),
    State.ch_afterDecoder_self]

theorem Chan.driving_of_running : (s.ch c).ms.state.driving = true := (Chan.drives_of_running running motion).driving

theorem State.count_overflow_stops (noEnd : ∀ e, ¬(s.ch c).Meets ph m e) (quiet : ¬(s.ch c).Loses ph m)
    (stops : (s.ch c).overflowStop = true) : s.CountStops c ph .periodOverflow := by
  refine State.countStops_of (S := s.afterDecoder c ph) ?_ (s.afterDecoder_frame c ph) ?_ (Chan.driving_of_running running motion)
  · rw [State.count_running ph running, stops, State.runningReport_overflow]
    · rw [State.ch_afterDecoder_self]
      exact Chan.quiet_of_not_loses motion quiet
    · rw [State.endAtCount_eq _ c m (State.decoded_motion motion), State.ch_afterDecoder_self]
      by_cases along : (s.ch c).countDir ph = m.dir
      · rw [Option.eq_none_iff_forall_not_mem.2 (fun e ends => noEnd e ⟨along, ends⟩)]
        exact Bool.and_false _
      · rw [Chan.commanded_against running motion along]
        rfl
  · rw [State.ch_afterDecoder_self]
    exact (s.ch c).reported_decodeCount ph

theorem State.count_drift_stops (loses : (s.ch c).Loses ph m) (noStop : (s.ch c).overflowStop = false) : s.CountStops c ph .drift := by
  refine State.countStops_of (S := (s.afterDecoder c ph).setCh c (((s.ch c).decodeCount ph).raise .drift)) ?_
    ((s.afterDecoder_frame c ph).setCh c _) ?_ (Chan.driving_of_running running motion)
  · rw [State.count_running ph running, noStop, State.runningReport_drift, State.ch_afterDecoder_self]
    rw [State.ch_afterDecoder_self]
    exact (Chan.loses_eq motion).2 loses
  · rw [State.ch_setCh_self]
    exact (s.ch c).reported_drift ph

/-- A loss of position and an overflow in one count: one of the two is named, in an open order (log 10). -/
theorem State.count_drift_or_overflow_stops (loses : (s.ch c).Loses ph m) (stops : (s.ch c).overflowStop = true) :
    s.CountStops c ph .drift ∨ s.CountStops c ph .periodOverflow := by
  obtain ⟨x, either, reported⟩ := State.runningReport_race_drift (s := s.afterDecoder c ph) (c := c)
    (commanded := (s.ch c).commanded == some ((s.ch c).countDir ph))
    (lost := (s.ch c).pd.known && !((s.ch c).decodeCount ph).pd.known)
    (by rw [State.ch_afterDecoder_self]; exact (Chan.loses_eq motion).2 loses)
  have stopped : s.CountStops c ph x := by
    refine State.countStops_of (S := ((s.afterDecoder c ph).setCh c (((s.ch c).decodeCount ph).raise .drift)).countRace) ?_
      ((s.afterDecoder_frame c ph).setCh c _).countRace ?_ (Chan.driving_of_running running motion)
    · rw [State.count_running ph running, stops, reported, State.ch_afterDecoder_self]
    · rw [State.ch_countRace, State.ch_setCh_self]
      exact (s.ch c).reported_drift ph
  rcases either with rfl | rfl
  · exact .inl stopped
  · exact .inr stopped

/-- An end of travel and an overflow in one count: one of the two is taken, in an open order (log 10). -/
theorem State.count_overflow_or_meets {e : TravelEnd} (meets : (s.ch c).Meets ph m e) (quiet : ¬(s.ch c).Loses ph m)
    (stops : (s.ch c).overflowStop = true) : s.CountStops c ph .periodOverflow ∨
      s.count c ph = (s.afterDecoder c ph).countRace.setCh c (((s.ch c).decodeCount ph).countBlanking.ended e) := by
  obtain ⟨along, ends⟩ := meets
  have counted := State.count_running ph running
  rw [stops, Chan.commanded_with running motion along] at counted
  rcases State.runningReport_race_end (s := s.afterDecoder c ph) (c := c)
    (lost := (s.ch c).pd.known && !((s.ch c).decodeCount ph).pd.known)
    (by rw [State.ch_afterDecoder_self]; exact Chan.quiet_of_not_loses motion quiet)
    (by rw [State.endAtCount_eq _ c m (State.decoded_motion motion), State.ch_afterDecoder_self, ends]; rfl) with h | h
  · refine .inl (State.countStops_of (counted.trans h) (s.afterDecoder_frame c ph).countRace ?_
      (Chan.driving_of_running running motion))
    rw [State.ch_countRace, State.ch_afterDecoder_self]
    exact (s.ch c).reported_decodeCount ph
  · refine .inr (counted.trans (h.trans ?_))
    have raced : (s.afterDecoder c ph).countRace.ch c = (s.ch c).decodeCount ph := by
      rw [State.ch_countRace, State.ch_afterDecoder_self]
    rw [State.progress_ends (m := m) (e := e) (by rw [raced, Chan.decodeCount_ms]; exact motion) (by rw [raced]; exact ends), raced]

end

/-! ## The ends of travel met, one by one -/

section
variable {k : Chan} {ph : HallPhase} {m : Motion}

theorem Chan.blanked_kept (k : Chan) (ph : HallPhase) : k.Kept (k.decodeCount ph).countBlanking :=
  (k.kept_decodeCount ph).trans (k.decodeCount ph).blanked_countBlanking.kept

/-- The closed end of a count in End mode SOFT: counters and the adapted profile (R151). -/
def Chan.ClosedSoft (k : Chan) (m : Motion) (u : Chan) : Prop :=
  u.pd.travel = min 65535 (k.pd.travel + 1) ∧ u.ms.reversal = 0 ∧ u.ms.override = false ∧ u.rps = (k.adapt false false m.filling).rps

theorem Chan.closedSoft_ended (motion : k.ms.motion = some m) :
    ((k.decodeCount ph).countBlanking.ended .closedEnd).DwellsToward (.idle .completedClosed) ∧
      k.ClosedSoft m ((k.decodeCount ph).countBlanking.ended .closedEnd) := by
  obtain ⟨dwells, travel, reversal, override, rps, -⟩ := (k.decodeCount ph).countBlanking.completeClosed_spec false false
  obtain ⟨sameMotion, -, sameActive, sameTaint, sameRps, -, -⟩ := (k.decodeCount ph).blanked_countBlanking
  obtain ⟨-, -, -, sameTravel, -⟩ := k.blanked_kept ph
  have fills : (k.decodeCount ph).countBlanking.filling = m.filling := by
    rw [Chan.filling, sameMotion, Chan.decodeCount_ms, motion]
    rfl
  rw [sameTravel] at travel
  refine ⟨dwells, travel, reversal, override, rps.trans ?_⟩
  rw [fills]
  rw [Chan.decodeCount_ms] at sameActive sameTaint
  rw [Chan.decodeCount_rps] at sameRps
  exact Chan.adapt_congr false false m.filling sameRps sameTaint sameActive

theorem Chan.kept_ended_idle (r : MotionResult) : k.Kept ((k.decodeCount ph).countBlanking.ended (.idle r)) :=
  (k.blanked_kept ph).trans (Chan.kept_enterDwell _ _)

theorem Chan.ended_openDone : k.Kept ((k.decodeCount ph).countBlanking.ended .openDone) ∧
    ((k.decodeCount ph).countBlanking.ended .openDone).ms.motion = some (.normalize .fill) ∧
    ((k.decodeCount ph).countBlanking.ended .openDone).ms.lease = k.ms.lease := by
  refine ⟨(k.blanked_kept ph).trans (Chan.kept_ended_openDone _), rfl, ?_⟩
  have lease := (k.decodeCount ph).blanked_countBlanking.lease
  rw [Chan.decodeCount_ms] at lease
  exact lease

end

end Sys2Proof.Machine
end

section
/-! PROOFS. The statement on counts of a drive. -/

namespace Sys2Proof.Machine

section
variable {k : Chan} {ph : HallPhase} {m : Motion}

/-! ## R149's table at a count -/

/-- R149's table on the position a count has left. -/
theorem Chan.meets_table (m : Motion) (known : k.pd.known = true) (within : k.countInBounds ph) :
    let p := k.counted ph
    let l : Int := k.ms.active.get .travelLength
    let soft := m.dir = .closing ∧ m.seeking = false ∧ k.ms.active.get .endMode = 1 ∧
      p ≤ (k.ms.active.get .softClose : Int)
    let target := ∃ q : Nat, (m = .goTo .closing q ∧ p ≤ (q : Int)) ∨ (m = .goTo .opening q ∧ (q : Int) ≤ p)
    let opened := (m = .express .opening ∨ m = .jog .opening) ∧ l ≤ p
    let phase := m = .normalize .openUp ∧ l ≤ p
    (soft → (k.decodeCount ph).travelEnd m = some .closedEnd) ∧
      (¬soft → target → (k.decodeCount ph).travelEnd m = some (.idle .targetReached)) ∧
      (opened → (k.decodeCount ph).travelEnd m = some (.idle .completedOpen)) ∧
      (phase → (k.decodeCount ph).travelEnd m = some .openDone) ∧
      (¬(soft ∨ target ∨ opened ∨ phase) → (k.decodeCount ph).travelEnd m = none) := by
  obtain ⟨position, stays⟩ := (k.positionFollows_decodeCount ph).1 known within
  have table := (k.decodeCount ph).travelEnd_of_known m stays
  rw [position, Chan.decodeCount_ms] at table
  exact table

theorem Chan.travelEnd_unjudged {m : Motion} (unjudged : ¬(k.pd.known = true ∧ k.countInBounds ph)) :
    (k.decodeCount ph).travelEnd m = none :=
  Chan.travelEnd_of_unknown _ m (Bool.eq_false_iff.2 (fun known => unjudged ((k.known_decodeCount ph).1 known)))

/-- Blanking at a count in the commanded direction (R148). -/
theorem Chan.countBlanking_count (running : k.ms.state = .startup ∨ k.ms.state = .travel) (motion : k.ms.motion = some m)
    (along : k.countDir ph = m.dir) :
    let passed := min 2 (k.pd.confirm + 1) = 2 ∧ k.ms.active.get .startupBlanking ≤ min 64 (k.ms.blanking + 1)
    (k.decodeCount ph).countBlanking = { k.decodeCount ph with
      ms := { k.ms with
        blanking := min 64 (k.ms.blanking + 1)
        state := if k.ms.state = .travel ∨ passed then .travel else .startup }
      ee := if k.ms.state = .startup ∧ passed then (k.decodeCount ph).ee.emptyWindow else (k.decodeCount ph).ee } := by
  obtain ⟨-, -, -, -, -, -, confirm, -⟩ := k.decodeCount_pd ph
  rw [(Chan.drives_of_running running motion).commanded, along, if_neg (Option.some_ne_none _), if_pos rfl] at confirm
  have blanked := (k.decodeCount ph).countBlanking_eq (by rw [Chan.decodeCount_ms]; exact running)
  rw [Chan.decodeCount_ms, confirm] at blanked
  exact blanked

theorem Chan.evaluator_decodeCount (k : Chan) (ph : HallPhase) : (k.decodeCount ph).ee.slots = k.ee.slots ∧
    (k.decodeCount ph).ee.top = k.ee.top ∧ (k.decodeCount ph).ee.history = k.ee.history ∧
    (k.decodeCount ph).ee.summary = k.ee.summary ∧ (k.decodeCount ph).ee.lane = k.ee.lane := by
  rw [k.decodeCount_ee_sticky ph]
  exact ⟨rfl, rfl, rfl, rfl, rfl⟩

end

/-! ## The report of a running channel: the drive goes on (R148) -/

section
variable {s : State} {c : ChanId} {ph : HallPhase} {m : Motion}

/-- A count that changes the decoder and the flags alone. -/
theorem count_unreported (counted : s.count c ph = s.afterDecoder c ph) :
    ∃ t, exec (.count c ph) s = .next t ∧ (t.ch c).ms = (s.ch c).ms ∧ (t.ch c).out = (s.ch c).out ∧ (t.ch c).rps = (s.ch c).rps ∧
      (t.ch c).pd.travel = (s.ch c).pd.travel ∧ (t.ch c).ee = { (s.ch c).ee with sticky := (t.ch c).ee.sticky } ∧
      t.pool = s.pool := by
  obtain ⟨ms, out, rps, travel⟩ := (s.ch c).reported_decodeCount ph
  refine ⟨_, (exec_count c ph s).trans (by rw [counted]), ?_⟩
  simp only [State.ch_serve, State.ch_afterDecoder_self]
  exact ⟨ms, out, rps, travel, (s.ch c).decodeCount_ee_sticky ph, (s.afterDecoder_frame c ph).pool⟩

theorem count_blanks (running : (s.ch c).ms.state = .startup ∨ (s.ch c).ms.state = .travel) (motion : (s.ch c).ms.motion = some m)
    (along : (s.ch c).countDir ph = m.dir)
    (counted : s.count c ph = (s.afterDecoder c ph).setCh c ((s.ch c).decodeCount ph).countBlanking) :
    let k := s.ch c
    let blanking := min 64 (k.ms.blanking + 1)
    let passed := min 2 (k.pd.confirm + 1) = 2 ∧ k.ms.active.get .startupBlanking ≤ blanking
    ∃ t, exec (.count c ph) s = .next t ∧
      (t.ch c).ms = { k.ms with
        blanking := blanking
        state := if k.ms.state = .travel ∨ passed then .travel else .startup } ∧
      (k.ms.state = .startup → passed → (t.ch c).ee.top = 0 ∧
        ∀ i : Fin 8, (t.ch c).ee.slots[i] = ⟨k.ee.slots[i].value, .empty⟩) ∧
      (k.ms.state = .travel ∨ ¬passed → (t.ch c).ee.top = k.ee.top ∧ (t.ch c).ee.slots = k.ee.slots) ∧
      (t.ch c).ee.history = k.ee.history ∧ (t.ch c).ee.summary = k.ee.summary ∧ (t.ch c).ee.lane = k.ee.lane ∧
      (t.ch c).out = k.out ∧ (t.ch c).rps = k.rps ∧ (t.ch c).pd.travel = k.pd.travel ∧ t.pool = s.pool := by
  intro k blanking passed
  obtain ⟨-, out, rps, travel⟩ := k.reported_decodeCount ph
  obtain ⟨slots, top, history, summary, lane⟩ := k.evaluator_decodeCount ph
  refine ⟨_, (exec_count c ph s).trans (by rw [counted]), ?_⟩
  simp only [State.ch_serve, State.ch_setCh_self]
  rw [Chan.countBlanking_count running motion along]
  refine ⟨rfl, fun state done => ?_, fun stays => ?_, ?_, ?_, ?_, out, rps, travel, (s.afterDecoder_frame c ph).pool⟩
  · rw [if_pos ⟨state, done⟩]
    refine ⟨rfl, fun i => ?_⟩
    rw [Excess.emptyWindow_slot, slots]
  · rw [if_neg]
    · exact ⟨top, slots⟩
    · rintro ⟨state, done⟩
      rcases stays with h | h
      · rw [state] at h
        cases h
      · exact h done
  · dsimp only
    split
    · exact history
    · exact history
  · dsimp only
    split
    · exact summary
    · exact summary
  · dsimp only
    split
    · exact lane
    · exact lane

end

/-! ## The report of a channel in BACKOFF (R154) -/

theorem Chan.backoffMet_iff {k : Chan} {ph : HallPhase} {b : BackoffRecord} (record : k.ms.backoff = some b) :
    (k.decodeCount ph).backoffMet = true ↔ k.pd.known = true ∧ k.countInBounds ph ∧ b.target ≤ k.counted ph := by
  rw [Chan.backoffMet, Chan.decodeCount_ms, record, Option.any_some, Decoder.meets_opening, k.known_decodeCount ph, and_assoc]
  refine and_congr_right fun known => and_congr_right fun within => ?_
  rw [((k.positionFollows_decodeCount ph).1 known within).1]

section
variable {s : State} {c : ChanId} {ph : HallPhase} (state : (s.ch c).ms.state = .backoff)
include state

theorem State.count_backoff_goes_on (away : ((s.ch c).decodeCount ph).backoffMet = false) (noStop : (s.ch c).overflowStop = false) :
    s.count c ph = s.afterDecoder c ph := by
  rw [State.count_backoff ph state, State.backoffReport.eq_def, State.ch_afterDecoder_self, away, noStop]

theorem State.count_backoff_reverses (met : ((s.ch c).decodeCount ph).backoffMet = true) (noStop : (s.ch c).overflowStop = false) :
    s.CountEnds c ph (.idle .reversed) (s.ch c).Kept := by
  refine State.countEnds_of (S := s.afterDecoder c ph) (u := ((s.ch c).decodeCount ph).enterDwell (.idle .reversed)) ?_
    (s.afterDecoder_frame c ph) (Chan.dwellsToward_enterDwell _ _) (((s.ch c).kept_decodeCount ph).trans (Chan.kept_enterDwell _ _))
  rw [State.count_backoff ph state, State.backoffReport.eq_def, State.ch_afterDecoder_self, met, noStop, State.dwellIdle_eq,
    State.ch_afterDecoder_self]

theorem State.count_backoff_stops (away : ((s.ch c).decodeCount ph).backoffMet = false) (stops : (s.ch c).overflowStop = true) :
    s.CountStops c ph .periodOverflow := by
  refine State.countStops_of (S := s.afterDecoder c ph) ?_ (s.afterDecoder_frame c ph) ?_ (by rw [state]; rfl)
  · rw [State.count_backoff ph state, State.backoffReport.eq_def, State.ch_afterDecoder_self, away, stops]
  · rw [State.ch_afterDecoder_self]
    exact (s.ch c).reported_decodeCount ph

/-- A target met and an overflow in one count: one of the two is taken, in an open order (log 10). -/
theorem State.count_backoff_race (met : ((s.ch c).decodeCount ph).backoffMet = true) (stops : (s.ch c).overflowStop = true) :
    s.CountEnds c ph (.idle .reversed) (s.ch c).Kept ∨ s.CountStops c ph .periodOverflow := by
  have counted := State.count_backoff ph state
  rw [State.backoffReport.eq_def, State.ch_afterDecoder_self, met, stops] at counted
  dsimp only at counted
  cases race : Config.raceFirst (s.afterDecoder c ph).races with
  | true =>
    rw [race, if_pos rfl] at counted
    refine .inr (State.countStops_of counted (s.afterDecoder_frame c ph).countRace ?_ (by rw [state]; rfl))
    rw [State.ch_countRace, State.ch_afterDecoder_self]
    exact (s.ch c).reported_decodeCount ph
  | false =>
    rw [race, if_neg Bool.false_ne_true, State.dwellIdle_eq, State.ch_countRace, State.ch_afterDecoder_self] at counted
    exact .inl (State.countEnds_of counted (s.afterDecoder_frame c ph).countRace (Chan.dwellsToward_enterDwell _ _)
      (((s.ch c).kept_decodeCount ph).trans (Chan.kept_enterDwell _ _)))

end

/-- Settles O48. -/
theorem countOfADrive : Obligations.CountOfADrive := by
  refine ⟨count_of_drive, fun s c ph m running motion => ?_, fun s c ph b state record => ?_⟩
  · intro k p l commanded stopped lost soft target opened phase judged met confirm blanking passed toward kept conditionStop
    have driving : k.ms.state.driving = true := Chan.driving_of_running running motion
    have stops : stopped → k.overflowStop = true := (k.overflowStop_iff driving).2
    have noStop : ¬stopped → k.overflowStop = false := fun h => Bool.eq_false_iff.2 fun h' => h ((k.overflowStop_iff driving).1 h')
    have staysIn : judged → ¬lost := fun ⟨_, _, within⟩ ⟨_, beyond, _⟩ => beyond within
    have noEnd : ¬met → ∀ e, ¬k.Meets ph m e := fun unmet e ⟨along, ends⟩ => by
      by_cases h : k.pd.known = true ∧ k.countInBounds ph
      · obtain ⟨-, -, -, -, none_⟩ := Chan.meets_table m h.1 h.2
        rw [none_ fun any => unmet ⟨⟨along, h⟩, any⟩] at ends
        cases ends
      · rw [Chan.travelEnd_unjudged h] at ends
        cases ends
    have frame := s.afterDecoder_frame c ph
    have ends (e : TravelEnd) (isJudged : judged) (isEnd : (k.decodeCount ph).travelEnd m = some e) (quiet : ¬stopped) :
        s.count c ph = (s.afterDecoder c ph).setCh c ((k.decodeCount ph).countBlanking.ended e) :=
      State.count_meets running motion ⟨isJudged.1, isEnd⟩ (staysIn isJudged) (noStop quiet)
    have races (e : TravelEnd) (isJudged : judged) (isEnd : (k.decodeCount ph).travelEnd m = some e) (both : stopped) :
        s.CountStops c ph .periodOverflow ∨
          s.count c ph = (s.afterDecoder c ph).countRace.setCh c ((k.decodeCount ph).countBlanking.ended e) :=
      State.count_overflow_or_meets running motion ⟨isJudged.1, isEnd⟩ (staysIn isJudged) (stops both)
    refine ⟨fun against stays quiet => count_unreported (State.count_against running motion against stays (noStop quiet)),
      fun along unmet stays quiet => count_blanks running motion along ?_, fun isJudged quiet => ?_,
      fun unmet stays h => State.count_overflow_stops running motion (noEnd unmet) stays (stops h),
      fun loses quiet => State.count_drift_stops running motion loses (noStop quiet),
      fun loses h => State.count_drift_or_overflow_stops running motion loses (stops h), fun isMet both => ?_⟩
    · refine State.count_goes_on running motion along ?_ stays (noStop quiet)
      exact Option.eq_none_iff_forall_not_mem.2 fun e isEnd => noEnd unmet e ⟨along, isEnd⟩
    · obtain ⟨softEnd, targetEnd, openEnd, phaseEnd, -⟩ := Chan.meets_table m isJudged.2.1 isJudged.2.2
      refine ⟨fun isSoft => ?_, fun hard isTarget => ?_, fun isOpen => ?_, fun isPhase => ?_⟩
      · obtain ⟨dwells, closed⟩ := Chan.closedSoft_ended (ph := ph) motion
        exact State.countEnds_of (ends _ isJudged (softEnd isSoft) quiet) frame dwells closed
      · exact State.countEnds_of (ends _ isJudged (targetEnd hard isTarget) quiet) frame (Chan.dwellsToward_enterDwell _ _)
          (Chan.kept_ended_idle _)
      · exact State.countEnds_of (ends _ isJudged (openEnd isOpen) quiet) frame (Chan.dwellsToward_enterDwell _ _)
          (Chan.kept_ended_idle _)
      · exact State.countEnds_of
          (more := fun u => k.Kept u ∧ u.ms.motion = some (.normalize .fill) ∧ u.ms.lease = k.ms.lease)
          (ends _ isJudged (phaseEnd isPhase) quiet) frame (Chan.dwellsToward_ended_openDone _) Chan.ended_openDone
    · obtain ⟨isJudged, which⟩ := isMet
      obtain ⟨softEnd, targetEnd, openEnd, phaseEnd, -⟩ := Chan.meets_table m isJudged.2.1 isJudged.2.2
      by_cases isSoft : soft
      · refine (races _ isJudged (softEnd isSoft) both).imp id fun counted => .inl ⟨isSoft, ?_⟩
        exact State.countEnds_of (more := fun _ => True) counted frame.countRace (Chan.closedSoft_ended motion).1 trivial
      · rcases which with h | isTarget | isOpen | isPhase
        · exact absurd h isSoft
        · refine (races _ isJudged (targetEnd isSoft isTarget) both).imp id fun counted => .inr (.inl ⟨isSoft, isTarget, ?_⟩)
          exact State.countEnds_of counted frame.countRace (Chan.dwellsToward_enterDwell _ _) (Chan.kept_ended_idle _)
        · refine (races _ isJudged (openEnd isOpen) both).imp id fun counted => .inr (.inr (.inl ⟨isOpen, ?_⟩))
          exact State.countEnds_of counted frame.countRace (Chan.dwellsToward_enterDwell _ _) (Chan.kept_ended_idle _)
        · refine (races _ isJudged (phaseEnd isPhase) both).imp id fun counted => .inr (.inr (.inr ⟨isPhase, ?_⟩))
          exact State.countEnds_of counted frame.countRace (Chan.dwellsToward_ended_openDone _) Chan.ended_openDone.1
  · intro k stopped met kept reversed conditionStop
    have driving : k.ms.state.driving = true := by rw [show k.ms.state = .backoff from state]; rfl
    have stops : stopped → k.overflowStop = true := (k.overflowStop_iff driving).2
    have noStop : ¬stopped → k.overflowStop = false := fun h => Bool.eq_false_iff.2 fun h' => h ((k.overflowStop_iff driving).1 h')
    have meets : met → (k.decodeCount ph).backoffMet = true := (Chan.backoffMet_iff record).2
    have away : ¬met → (k.decodeCount ph).backoffMet = false := fun h => Bool.eq_false_iff.2 fun h' => h ((Chan.backoffMet_iff record).1 h')
    exact ⟨fun unmet quiet => count_unreported (State.count_backoff_goes_on state (away unmet) (noStop quiet)),
      fun isMet quiet => State.count_backoff_reverses state (meets isMet) (noStop quiet),
      fun unmet h => State.count_backoff_stops state (away unmet) (stops h),
      fun isMet h => State.count_backoff_race state (meets isMet) (stops h)⟩

end Sys2Proof.Machine
end

section
/-! PROOFS. Illegal transitions and the overflow of the interval timer. -/

namespace Sys2Proof.Machine

theorem exec_illegalTransition (c : ChanId) (s : State) : exec (.illegalTransition c) s = .next (s.illegalTransition c).serve := rfl

theorem exec_intervalTimerOverflow (c : ChanId) (s : State) : exec (.intervalTimerOverflow c) s = .next (s.intervalOverflow c).serve := rfl

theorem exec_stallWatchdogExpiry (c : ChanId) (s : State) : exec (.stallWatchdogExpiry c) s = .next (s.watchdogExpiry c).serve := rfl

theorem Chan.masked_iff {k : Chan} {x : Condition} : k.masked x = true ↔ k.ms.active.get x.mask = 1 := by
  simp [Chan.masked, ParamSet.on]

/-! ## What an illegal transition leaves of a channel (R22) -/

/-- GLITCH raised, both levels flipped, ring and timer cleared, an unconfirmed drive's confirmation begun anew, a closing
motion tainted. -/
structure Chan.Glitched (k u : Chan) : Prop where
  sticky : u.ee.sticky = { k.ee.sticky with glitch := true }
  lastStep : u.ee.lastStep = k.ee.lastStep
  filtA : u.pd.filtA = !k.pd.filtA
  filtB : u.pd.filtB = !k.pd.filtB
  position : u.pd.position = k.pd.position
  difference : u.pd.difference = k.pd.difference
  ring : u.pd.ring = []
  timer : u.pd.timer = 0
  overflowed : u.pd.overflow = 0
  confirm : u.pd.confirm = if k.pd.confirm = 2 then 2 else 0
  taint : u.ms.taint = (k.ms.taint || k.inClosingMotion)

/-- What an illegal transition keeps of a channel, its position's validity with it. -/
structure Chan.IllegalKeeps (k u : Chan) : Prop where
  known : u.pd.known = k.pd.known
  watchdog : u.pd.watchdog = k.pd.watchdog
  ms : u.ms = { k.ms with taint := k.ms.taint || k.inClosingMotion }
  out : u.out = k.out
  rps : u.rps = k.rps

theorem Chan.illegal_eq (k : Chan) : k.illegal = { k with
    pd := { (k.pd.flipA.flipB).restartTimer with ring := [], confirm := if k.pd.confirm = 2 then 2 else 0 }
    ee := { k.ee with sticky := { k.ee.sticky with glitch := true } }
    ms := { k.ms with taint := k.ms.taint || k.inClosingMotion } } := by
  obtain ⟨-, -, -, -, -, -, confirmA, -⟩ := k.pd.flip_fields .a
  obtain ⟨-, -, -, -, -, -, confirmB, -⟩ := k.pd.flipA.flip_fields .b
  have confirm : (k.pd.flipA.flipB).restartTimer.confirm = k.pd.confirm := confirmB.trans confirmA
  unfold Chan.illegal
  dsimp only
  rw [confirm]
  cases closing : k.inClosingMotion with
  | true => simp [Chan.setTaint, Chan.raise, ConditionFlags.raise]
  | false => simp [Chan.raise, ConditionFlags.raise]

theorem Chan.glitched_illegal (k : Chan) : k.Glitched k.illegal := by
  obtain ⟨positionA, -, -, -, -, -, -, differenceA, -, -, filtAA, filtBA⟩ := k.pd.flip_fields .a
  obtain ⟨positionB, -, -, -, -, -, -, differenceB, -, -, filtAB, filtBB⟩ := k.pd.flipA.flip_fields .b
  rw [k.illegal_eq]
  exact ⟨rfl, rfl, filtAB.trans filtAA, filtBB.trans (congrArg not filtBA), positionB.trans positionA, differenceB.trans differenceA,
    rfl, rfl, rfl, rfl, rfl⟩

theorem Chan.illegal_keeps (k : Chan) : k.IllegalKeeps k.illegal := by
  obtain ⟨-, knownA, -, -, -, watchdogA, -⟩ := k.pd.flip_fields .a
  obtain ⟨-, knownB, -, -, -, watchdogB, -⟩ := k.pd.flipA.flip_fields .b
  rw [k.illegal_eq]
  exact ⟨knownB.trans knownA, watchdogB.trans watchdogA, rfl, rfl, rfl⟩

theorem Chan.Glitched.losePosition {k u : Chan} (h : k.Glitched u) : k.Glitched u.losePosition := by
  obtain ⟨sticky, lastStep, filtA, filtB, position, difference, ring, timer, overflowed, confirm, taint⟩ := h
  exact ⟨sticky, lastStep, filtA, filtB, position, difference, ring, timer, overflowed, confirm, taint⟩

theorem Chan.Glitched.enterDwell {k u : Chan} (x : Successor) (h : k.Glitched u) : k.Glitched (u.enterDwell x) := by
  obtain ⟨sticky, lastStep, filtA, filtB, position, difference, ring, timer, overflowed, confirm, taint⟩ := h
  exact ⟨sticky, lastStep, filtA, filtB, position, difference, ring, timer, overflowed, confirm, taint⟩

theorem Chan.not_inClosingMotion_of_queued {k : Chan} (queued : k.ms.state = .queued) : k.inClosingMotion = false := by
  unfold Chan.inClosingMotion
  rw [queued]

/-! ## An illegal transition by mask and state (R22, R157) -/

section
variable {s : State} {c : ChanId}

theorem State.illegal_masked (masked : (s.ch c).ms.active.get .maskGlitch = 1) :
    s.illegalTransition c = s.setCh c (s.ch c).illegal := by
  unfold State.illegalTransition
  dsimp only
  rw [if_pos (Chan.masked_iff.2 masked)]
  rfl

theorem State.illegal_unmasked (unmasked : (s.ch c).ms.active.get .maskGlitch ≠ 1) :
    s.illegalTransition c =
      if (s.ch c).ms.state.driving = true then (s.setCh c (s.ch c).illegal.losePosition).conditionStop c .glitch
      else if (s.ch c).pd.known = true then (s.setCh c (s.ch c).illegal.losePosition).losePositionQueued c
      else s.setCh c (s.ch c).illegal.losePosition := by
  unfold State.illegalTransition
  dsimp only
  rw [if_neg (fun h => unmasked (Chan.masked_iff.1 h))]
  simp only [State.modCh_eq, State.ch_setCh_self, State.setCh_setCh]

theorem State.illegal_lost (unmasked : (s.ch c).ms.active.get .maskGlitch ≠ 1) (rests : (s.ch c).ms.state.driving = false)
    (noEnd : (s.ch c).ms.state ≠ .queued ∨ (s.ch c).pd.known = false ∨ (s.ch c).ms.motion.any Motion.unattendedClose = false) :
    s.illegalTransition c = s.setCh c (s.ch c).illegal.losePosition := by
  have kept := (s.ch c).illegal_keeps.ms
  rw [State.illegal_unmasked unmasked, if_neg (by simp [rests])]
  by_cases known : (s.ch c).pd.known = true
  · rw [if_pos known, State.losePositionQueued, if_neg]
    rw [State.ch_setCh_self]
    rintro ⟨queued, unattended⟩
    rcases noEnd with h | h | h
    · exact h ((congrArg Sequencer.state kept).symm.trans queued)
    · rw [known] at h
      cases h
    · rw [← congrArg Sequencer.motion kept] at h
      exact Bool.false_ne_true (h.symm.trans unattended)
  · rw [if_neg known]

theorem State.illegal_ends (unmasked : (s.ch c).ms.active.get .maskGlitch ≠ 1) (queued : (s.ch c).ms.state = .queued)
    (known : (s.ch c).pd.known = true) (unattended : (s.ch c).ms.motion.any Motion.unattendedClose = true) :
    s.illegalTransition c = (s.setCh c (s.ch c).illegal.losePosition).endIdle c .positionLost := by
  have kept := (s.ch c).illegal_keeps.ms
  rw [State.illegal_unmasked unmasked, if_neg (by simp [queued, ChState.driving]), if_pos known, State.losePositionQueued, if_pos]
  rw [State.ch_setCh_self]
  exact ⟨(congrArg Sequencer.state kept).trans queued, (congrArg (fun m => m.motion.any Motion.unattendedClose) kept).trans unattended⟩

end

/-! ## A record taken by a channel that has been changed -/

/-- A channel changed, a record taken, and the channel changed again: the record, and the rest of the part. -/
theorem State.recorded (s : State) (c : ChanId) (v u : Chan) (q : IncidentCause) (p : Int) (known : Bool) :
    let t := (((s.setCh c v).takeRecord c q p known).setCh c u).serve
    t.ch c = u ∧ s.RecordTaken t ((s.setCh c v).fillRecord c q p known) ∧ s.SameOthers t c ∧ s.SameShared t := by
  intro t
  have record := State.recordTaken_takeRecord s (s.setCh c v) t c q p known rfl rfl rfl rfl
  have frame := State.ReportFrame.record (s.setCh c v) c q p known
  obtain ⟨others, device, lines, supply, clock, arbiter, link, effort⟩ := frame
  refine ⟨State.ch_setCh_self _ c u, record, fun d other => ?_, arbiter, ⟨device, lines, supply, clock, effort⟩,
    State.sameLink_serve link⟩
  exact ((State.ch_setCh_ne _ u other).trans (others d other)).trans (State.ch_setCh_ne s v other)

/-- Settles O49. -/
theorem illegalTransitionRaisesGlitch : Obligations.IllegalTransitionRaisesGlitch := by
  refine ⟨fun s c => ?_, fun s c unmasked queued => ?_⟩
  · intro k glitched
    have flags := k.glitched_illegal
    obtain ⟨known, watchdog, ms, out, rps⟩ := k.illegal_keeps
    have shows (t : State) (h : k.Glitched (t.ch c)) (others : s.SameOthers t c) (device : s.SameDevice t) : glitched t := by
      obtain ⟨sticky, lastStep, filtA, filtB, position, difference, ring, timer, overflowed, confirm, taint⟩ := h
      exact ⟨sticky, lastStep, filtA, filtB, position, difference, ring, timer, overflowed, confirm, taint, others, device⟩
    refine ⟨fun masked => ⟨_, exec_illegalTransition c s, ?_⟩, fun unmasked driving => ⟨_, exec_illegalTransition c s, ?_⟩,
      fun unmasked rests unqueued => ⟨_, exec_illegalTransition c s, ?_⟩⟩
    · rw [State.illegal_masked masked]
      have chan : (s.setCh c k.illegal).serve.ch c = k.illegal := State.ch_setCh_self s c _
      refine ⟨shows _ (by rw [chan]; exact flags) (s.sameOthers_setCh c _) ⟨rfl, rfl, rfl, rfl, rfl⟩, ?_⟩
      rw [chan]
      exact ⟨known, watchdog, (congrArg Sequencer.state ms).trans rfl, (congrArg Sequencer.motion ms).trans rfl, out, rps,
        s.sameShared_setCh c _, rfl⟩
    · have stopped : (s.setCh c k.illegal.losePosition).ch c = k.illegal.losePosition := State.ch_setCh_self s c _
      rw [State.illegal_unmasked unmasked, if_pos driving, State.conditionStop_eq, State.takeRecordHere, stopped]
      · obtain ⟨chan, ⟨taken, -⟩, others, shared⟩ := s.recorded c k.illegal.losePosition
          (k.illegal.losePosition.enterDwell (.fault .glitch)) (.condition .glitch) k.illegal.losePosition.pd.position
          k.illegal.losePosition.pd.known
        refine ⟨shows _ (by rw [chan]; exact flags.losePosition.enterDwell _) others shared.2.1, ?_⟩
        rw [chan]
        refine ⟨rfl, Chan.dwellsToward_enterDwell _ _, shared, (congrArg Sequencer.reversal ms).trans rfl, fun r rest free => ?_⟩
        obtain ⟨isFree, waiting, -, record, -⟩ := taken r rest free
        rw [record]
        refine ⟨isFree, waiting, rfl, ?_, rfl, ?_⟩
        · rfl
        · rw [State.fillRecord, State.ch_setCh_self]
          exact congrArg DriveOut.applied out
      · rw [stopped]
        exact (congrArg (fun m => m.state.driving) ms).trans driving
    · rw [State.illegal_lost unmasked rests (.inl unqueued)]
      have chan : (s.setCh c k.illegal.losePosition).serve.ch c = k.illegal.losePosition := State.ch_setCh_self s c _
      refine ⟨shows _ (by rw [chan]; exact flags.losePosition) (s.sameOthers_setCh c _) ⟨rfl, rfl, rfl, rfl, rfl⟩, ?_⟩
      rw [chan]
      exact ⟨rfl, (congrArg Sequencer.state ms).trans rfl, out, s.sameShared_setCh c _, rfl⟩
  · intro k
    have flags := k.glitched_illegal
    obtain ⟨-, -, ms, out, rps⟩ := k.illegal_keeps
    rw [Chan.not_inClosingMotion_of_queued queued, Bool.or_false] at ms
    have rests : (s.ch c).ms.state.driving = false := by rw [queued]; rfl
    refine ⟨fun noEnd => ⟨_, exec_illegalTransition c s, ?_⟩, fun known unattended noSlot => ⟨_, exec_illegalTransition c s, ?_⟩⟩
    · rw [State.illegal_lost unmasked rests (.inr noEnd)]
      simp only [State.ch_serve, State.ch_setCh_self]
      exact ⟨rfl, flags.position, flags.sticky, ms, out, rps, s.sameOthers_setCh c _, s.sameShared_setCh c _, rfl⟩
    · rw [State.illegal_ends unmasked queued known unattended]
      obtain ⟨chan, others, device, pool, arbiter, link⟩ :=
        State.endIdle_unheld (s := s.setCh c k.illegal.losePosition) (c := c) .positionLost noSlot
      rw [State.ch_setCh_self] at chan link
      have place : k.illegal.losePosition.pd.position = k.pd.position := flags.position
      rw [place] at link
      simp only [State.ch_serve, State.serve_arbiter, State.serve_pool, k] at chan arbiter pool ⊢
      rw [chan, arbiter, pool]
      have taint : (s.ch c).illegal.ms.taint = (s.ch c).ms.taint := congrArg Sequencer.taint ms
      refine ⟨rfl, flags.position, flags.sticky, rfl, rfl, rfl, taint, rfl, rfl, rps, rfl, rfl, fun waits => ?_, fun d other => ?_,
        device, State.sameLink_serve ?_, rfl⟩
      · rw [State.serve_link, Link.serve_notices_of_wait s waits _ (by rw [link]; rfl) (by rw [link]; rfl), link]
        exact Vector.getElem_set_self _
      · exact (others d other).trans (State.ch_setCh_ne _ _ other)
      · unfold State.SameLink
        rw [link]
        exact ⟨rfl, rfl, rfl, rfl, rfl, rfl, rfl, rfl, rfl⟩

/-! ## The interval timer's overflow (R26, R32) -/

/-- Settles O50. -/
theorem intervalTimerOverflowCounts : Obligations.IntervalTimerOverflowCounts := by
  intro s c wrapped
  refine ⟨fun first => ?_, fun second rests => ?_, fun second driving watched => ?_⟩
  · rw [exec_intervalTimerOverflow, State.intervalOverflow]
    dsimp only
    rw [first, if_neg (by decide), if_neg (fun h => by cases h.1), State.modCh_eq, first]
  · rw [exec_intervalTimerOverflow, State.intervalOverflow]
    dsimp only
    rw [second, if_neg (by decide), if_neg (fun h => by rw [rests] at h; cases h.2), State.modCh_eq, second]
  · rw [exec_intervalTimerOverflow, exec_stallWatchdogExpiry, State.intervalOverflow, State.watchdogExpiry]
    dsimp only
    rw [second, if_neg (by decide), if_pos ⟨rfl, driving⟩, State.modCh_eq s, second, if_pos]
    · rw [State.ch_setCh_self]
      exact watched

end Sys2Proof.Machine
end

section
/-! PROOFS. The stall, by state, motion, position and End mode, and the pinch response. -/

namespace Sys2Proof.Machine

/-! ## The outcome of a stall -/

/-- An incident taken as a record, or none and the pool as it was. -/
def State.Records (s t : State) : Option Incident → Prop
  | some i => s.RecordTaken t i
  | none => t.pool = s.pool

/-- A stall ends the drive in a DWELL toward a successor, with or without a record. -/
def State.StallEnds (s : State) (c : ChanId) (x : Successor) (taken : Option Incident) (more : Chan → Prop) : Prop :=
  ∃ t, exec (.stallWatchdogExpiry c) s = .next t ∧ (t.ch c).DwellsToward x ∧ more (t.ch c) ∧ s.SameOthers t c ∧
    s.SameShared t ∧ s.Records t taken

/-- The state in which the stall is taken: the watchdog has been stopped (R31). -/
def State.unwatched (s : State) (c : ChanId) : State := s.setCh c (s.ch c).stopWatchdog

theorem State.ch_unwatched (s : State) (c : ChanId) : (s.unwatched c).ch c = (s.ch c).stopWatchdog := State.ch_setCh_self s c _

theorem State.watchdogExpiry_watched {s : State} {c : ChanId} (watched : (s.ch c).pd.watchdog.isSome = true) :
    s.watchdogExpiry c = (s.unwatched c).stall c := by
  unfold State.watchdogExpiry
  rw [if_pos watched]
  rfl

section
variable {s : State} {c : ChanId} {x : Successor} {more : Chan → Prop} (watched : (s.ch c).pd.watchdog.isSome = true)
include watched

theorem State.stallEnds_quiet {u : Chan} (stalled : (s.unwatched c).stall c = s.setCh c u) (dwells : u.DwellsToward x)
    (holds : more u) : s.StallEnds c x none more := by
  refine ⟨_, (exec_stallWatchdogExpiry c s).trans (by rw [State.watchdogExpiry_watched watched, stalled]), ?_⟩
  simp only [State.ch_serve, State.ch_setCh_self]
  exact ⟨dwells, holds, s.sameOthers_setCh c u, s.sameShared_setCh c u, rfl⟩

theorem State.stallEnds_recorded {u v : Chan} {q : IncidentCause} {p : Int} {known : Bool} {i : Incident}
    (stalled : (s.unwatched c).stall c = ((s.setCh c v).takeRecord c q p known).setCh c u)
    (incident : (s.setCh c v).fillRecord c q p known = i) (dwells : u.DwellsToward x) (holds : more u) :
    s.StallEnds c x (some i) more := by
  obtain ⟨chan, record, others, shared⟩ := s.recorded c v u q p known
  refine ⟨_, (exec_stallWatchdogExpiry c s).trans (by rw [State.watchdogExpiry_watched watched, stalled]), ?_⟩
  rw [chan]
  rw [incident] at record
  exact ⟨dwells, holds, others, shared, record⟩

end

/-! ## The stall, case by case (R150) -/

section
variable {s : State} {c : ChanId} {m : Motion}

theorem State.stall_backoff (state : (s.ch c).ms.state = .backoff) : s.stall c = s.dwellIdle c .backoffStalled := by
  unfold State.stall
  dsimp only
  rw [state]

theorem State.stall_seeking (running : (s.ch c).ms.state = .startup ∨ (s.ch c).ms.state = .travel)
    (motion : (s.ch c).ms.motion = some m) (seeking : m.seeking = true) : s.stall c = s.setCh c (s.ch c).endOfSeek := by
  unfold State.stall
  dsimp only
  rcases running with state | state
  · rw [state, motion]
    exact if_pos seeking
  · rw [state, motion]
    exact if_pos seeking

theorem State.stall_startup (state : (s.ch c).ms.state = .startup) (motion : (s.ch c).ms.motion = some m)
    (drives : m.seeking = false) : s.stall c = s.dwellIdle c .blocked := by
  unfold State.stall
  dsimp only
  rw [state, motion]
  exact if_neg (by simp [drives])

theorem Motion.not_seeking_of_opening {m : Motion} (opens : m.dir = .opening) : m.seeking = false := by
  cases m with
  | normalize p =>
    cases p with
    | seek => cases opens
    | openUp | fill => rfl
  | jog d | express d | goTo d t => rfl

theorem State.stall_opening (state : (s.ch c).ms.state = .travel) (motion : (s.ch c).ms.motion = some m) (opens : m.dir = .opening) :
    s.stall c = s.dwellIdle c .blocked := by
  unfold State.stall
  dsimp only
  rw [state, motion]
  dsimp only
  rw [if_neg (by simp [Motion.not_seeking_of_opening opens]), if_neg (by simp [opens])]

theorem State.stall_closing (state : (s.ch c).ms.state = .travel) (motion : (s.ch c).ms.motion = some m) (closes : m.dir = .closing)
    (drives : m.seeking = false) : s.stall c = s.closingStall c := by
  unfold State.stall
  dsimp only
  rw [state, motion]
  dsimp only
  rw [if_neg (by simp [drives]), if_pos closes]

/-! ## A closing stall by position (R150) -/

/-- The channel at an unmasked drift of the closed end, before its record: position lost, adaptation barred (R151). -/
def Chan.driftLost (k : Chan) : Chan := (k.raise .drift).losePosition.adapt false true k.filling

theorem State.closingStall_pinch (known : (s.ch c).pd.known = true)
    (clear_ : ¬(s.ch c).pd.position < ((s.ch c).ms.active.get .zSeal : Int)) :
    s.closingStall c = s.pinch c .pinchStall (s.ch c).pd.position := by
  unfold State.closingStall
  dsimp only
  rw [if_pos]
  rw [known, Bool.true_and, decide_eq_true_eq, Ne, zoneAt_eq_seal]
  exact clear_

theorem State.closingStall_end (atEnd : (s.ch c).pd.known = false ∨ (s.ch c).pd.position < ((s.ch c).ms.active.get .zSeal : Int)) :
    s.closingStall c = if (s.ch c).ms.active.get .endMode = 1 then s.dwellIdle c .blocked else s.closedEnd c := by
  unfold State.closingStall
  dsimp only
  rw [if_neg]
  · simp [ParamSet.on]
  · rw [Bool.and_eq_true, decide_eq_true_eq, Ne, zoneAt_eq_seal]
    rintro ⟨known, clear_⟩
    rcases atEnd with h | h
    · rw [known] at h
      cases h
    · exact clear_ h

/-! ## A hard closed end (R151) -/

variable (hard : ¬(s.ch c).ms.active.get .endMode = 1)
include hard

theorem State.closedEnd_hard : s.closedEnd c =
    if (s.ch c).pd.known = false then s.setCh c (((s.ch c).setPosition 0).completeClosed true false)
    else if (s.ch c).drifted = false then s.setCh c (((s.ch c).setPosition 0).completeClosed false false)
    else if (s.ch c).ms.active.get .maskDrift = 1 then
      s.setCh c ((((s.ch c).raise .drift).setPosition 0).completeClosed false true)
    else
      ((s.setCh c (s.ch c).driftLost).takeRecord c (.condition .drift) (s.ch c).driftLost.pd.position
        (s.ch c).driftLost.pd.known).setCh c ((s.ch c).driftLost.enterDwell (.fault .drift)) := by
  unfold State.closedEnd Chan.driftLost
  dsimp only
  rw [if_neg (by simp [ParamSet.on, hard])]
  cases (s.ch c).pd.known with
  | false => rfl
  | true =>
    cases (s.ch c).drifted with
    | false => rfl
    | true =>
      by_cases mask : (s.ch c).ms.active.get .maskDrift = 1
      · simp [Chan.masked_iff, Condition.mask, mask]
      · simp [Chan.masked_iff, Condition.mask, mask]

end

theorem Chan.drifted_eq_false {k : Chan} : k.drifted = false ↔ k.pd.position.natAbs ≤ k.ms.active.get .endTolerance := by
  simp [Chan.drifted]

/-! ## A profile barred (R120, R121) -/

theorem Chan.adapt_barredPosition (k : Chan) (filling : Bool) : (k.adapt true false filling).rps =
    { k.rps with scratch := clearScratch, summary := ⟨.barredPosition, 0, 0, 0, 0, 0⟩ } := rfl

theorem Chan.adapt_barredDrift (k : Chan) (filling : Bool) : (k.adapt false true filling).rps =
    { k.rps with scratch := clearScratch, summary := ⟨.barredDrift, 0, 0, 0, 0, 0⟩ } := rfl

/-! ## Pinch response and override stop (R153, R155) -/

/-- What a pinch response counts and marks before its record (R153). -/
def Chan.pinched (k : Chan) (p : Int) : Chan :=
  { k with ms := { k.ms with
      reversal := min 7 (k.ms.reversal + 1)
      override := k.ms.override || decide (k.ms.active.get .reversalLimit ≤ min 7 (k.ms.reversal + 1))
      marker := true
      backoff := some ⟨min (k.ms.active.get .travelLength : Int) (p + k.ms.active.get .backoffDistance), none⟩ } }

theorem State.pinch_responds {s : State} {c : ChanId} (q : IncidentCause) (p : Int) (noOverride : (s.ch c).ms.override = false) :
    s.pinch c q p = ((s.setCh c ((s.ch c).pinched p)).takeRecord c q p true).setCh c (((s.ch c).pinched p).enterDwell .backoff) := by
  unfold State.pinch State.pinchResponse
  rw [if_neg (by simp [noOverride])]
  dsimp only
  rw [State.modCh_eq, State.modCh_eq, State.ch_takeRecord, State.ch_setCh_self]
  rfl

theorem State.pinch_overridden {s : State} {c : ChanId} (q : IncidentCause) (p : Int) (override : (s.ch c).ms.override = true) :
    s.pinch c q p = (s.takeRecord c .overrideStop (s.ch c).pd.position (s.ch c).pd.known).setCh c
      ((s.ch c).enterDwell (.idle .overrideStop)) := by
  unfold State.pinch State.overrideStop
  rw [if_pos override, State.takeRecordHere_eq, State.dwellIdle_eq, State.ch_takeRecord]

/-! ## The row of a pinch -/

/-- The record of a stall's stop: position, summary, window and history as they stand. -/
def State.stallRecord (s : State) (c : ChanId) (cause : IncidentCause) (reversal : Nat) : Incident :=
  let k := s.ch c
  ⟨c, cause, s.clock.ms, k.pd.position, k.pd.known, zoneAt k.ms.active k.pd.position, reversal, s.supply.u, k.out.applied,
    s.effort.road, s.effort.hold.isSome, some ⟨k.ee.summary, (List.finRange 8).map (fun i => k.ee.slots[k.ee.top - i]), k.ee.history⟩⟩

theorem State.fillRecord_stall {s : State} {c : ChanId} {q : IncidentCause} {v : Chan} (evidence : q.hasEvidence = true)
    (pd : v.pd.position = (s.ch c).pd.position ∧ v.pd.known = (s.ch c).pd.known) (out : v.out = (s.ch c).out) (ee : v.ee = (s.ch c).ee)
    (active : v.ms.active = (s.ch c).ms.active) :
    (s.setCh c v).fillRecord c q v.pd.position v.pd.known = s.stallRecord c q v.ms.reversal := by
  unfold State.fillRecord State.stallRecord
  dsimp only
  rw [State.ch_setCh_self, evidence, if_pos rfl, pd.1, pd.2, out, ee, active, Excess.newestFirst_eq]
  rfl

end Sys2Proof.Machine
end

section
/-! PROOFS. The statements on stalls and on the pinch response. -/

namespace Sys2Proof.Machine

/-- Position, travel counter and profile stand as before, but for the scratch. -/
def Chan.StandsStill (k u : Chan) : Prop :=
  u.pd.position = k.pd.position ∧ u.pd.known = k.pd.known ∧
    u.pd.travel = k.pd.travel ∧ u.rps.cells = k.rps.cells ∧ u.rps.summary = k.rps.summary

/-! ## The stall of a closing channel, its watchdog stopped -/

section
variable {s : State} {c : ChanId} {m : Motion}

theorem State.setCh_unwatched (s : State) (c : ChanId) (k : Chan) : (s.unwatched c).setCh c k = s.setCh c k :=
  State.setCh_setCh s c _ k

theorem State.dwellIdle_unwatched (s : State) (c : ChanId) (r : MotionResult) :
    (s.unwatched c).dwellIdle c r = s.setCh c ((s.ch c).stopWatchdog.enterDwell (.idle r)) := by
  rw [State.dwellIdle_eq, State.ch_unwatched, State.setCh_unwatched]

/-- Whether a stall is taken as one at the closed end: the position UNKNOWN or in the seal zone. -/
def Chan.AtClosedEnd (k : Chan) : Prop := k.pd.known = false ∨ k.pd.position < (k.ms.active.get .zSeal : Int)

theorem State.stallRecord_response (known : (s.ch c).pd.known = true) :
    (s.setCh c ((s.ch c).stopWatchdog.pinched (s.ch c).pd.position)).fillRecord c .pinchStall
    (s.ch c).pd.position true = s.stallRecord c .pinchStall (min 7 ((s.ch c).ms.reversal + 1)) := by
  rw [← known]
  exact State.fillRecord_stall (v := (s.ch c).stopWatchdog.pinched (s.ch c).pd.position) rfl ⟨rfl, rfl⟩ rfl rfl rfl

variable (motion : (s.ch c).ms.motion = some m) (closing : (s.ch c).ms.state = .travel ∧ m.dir = .closing ∧ m.seeking = false)
include motion closing

theorem State.stall_unwatched_closing : (s.unwatched c).stall c = (s.unwatched c).closingStall c := by
  obtain ⟨state, closes, drives⟩ := closing
  exact State.stall_closing (by rw [State.ch_unwatched]; exact state) (by rw [State.ch_unwatched]; exact motion) closes drives

theorem State.stall_unwatched_end (atEnd : (s.ch c).AtClosedEnd) : (s.unwatched c).stall c =
    if (s.ch c).ms.active.get .endMode = 1 then (s.unwatched c).dwellIdle c .blocked else (s.unwatched c).closedEnd c := by
  rw [State.stall_unwatched_closing motion closing, State.closingStall_end (by rw [State.ch_unwatched]; exact atEnd),
    State.ch_unwatched]
  rfl

theorem State.stall_unwatched_hard (hard : ¬(s.ch c).ms.active.get .endMode = 1) (atEnd : (s.ch c).AtClosedEnd) : (s.unwatched c).stall c =
    if (s.ch c).pd.known = false then s.setCh c (((s.ch c).stopWatchdog.setPosition 0).completeClosed true false)
    else if (s.ch c).drifted = false then s.setCh c (((s.ch c).stopWatchdog.setPosition 0).completeClosed false false)
    else if (s.ch c).ms.active.get .maskDrift = 1 then
      s.setCh c ((((s.ch c).stopWatchdog.raise .drift).setPosition 0).completeClosed false true)
    else
      ((s.setCh c (s.ch c).stopWatchdog.driftLost).takeRecord c (.condition .drift) (s.ch c).stopWatchdog.driftLost.pd.position
        (s.ch c).stopWatchdog.driftLost.pd.known).setCh c ((s.ch c).stopWatchdog.driftLost.enterDwell (.fault .drift)) := by
  rw [State.stall_unwatched_end motion closing atEnd, if_neg hard,
    State.closedEnd_hard (s := s.unwatched c) (by rw [State.ch_unwatched]; exact hard)]
  simp only [State.ch_unwatched, State.setCh_unwatched]
  rfl

variable (known : (s.ch c).pd.known = true) (aboveSeal : ¬(s.ch c).pd.position < ((s.ch c).ms.active.get .zSeal : Int))
include known aboveSeal

theorem State.stall_unwatched_pinch : (s.unwatched c).stall c = (s.unwatched c).pinch c .pinchStall (s.ch c).pd.position := by
  rw [State.stall_unwatched_closing motion closing,
    State.closingStall_pinch (by rw [State.ch_unwatched]; exact known) (by rw [State.ch_unwatched]; exact aboveSeal),
    State.ch_unwatched]
  rfl

theorem State.stall_unwatched_responds (noOverride : (s.ch c).ms.override = false) : (s.unwatched c).stall c =
    ((s.setCh c ((s.ch c).stopWatchdog.pinched (s.ch c).pd.position)).takeRecord c .pinchStall (s.ch c).pd.position true).setCh c
      (((s.ch c).stopWatchdog.pinched (s.ch c).pd.position).enterDwell .backoff) := by
  rw [State.stall_unwatched_pinch motion closing known aboveSeal,
    State.pinch_responds _ _ (by rw [State.ch_unwatched]; exact noOverride), State.ch_unwatched, State.setCh_unwatched]

end

/-! ## The rows of the stall's table -/

section
variable {s : State} {c : ChanId} {m : Motion} (watched : (s.ch c).pd.watchdog.isSome = true)

include watched

/-- A stall that ends in a DWELL toward IDLE and changes nothing else. -/
theorem State.stallEnds_idle {r : MotionResult} (stalled : (s.unwatched c).stall c = (s.unwatched c).dwellIdle c r) :
    s.StallEnds c (.idle r) none (fun u => (s.ch c).StandsStill u ∧ u.ms.reversal = (s.ch c).ms.reversal) :=
  State.stallEnds_quiet watched (stalled.trans (s.dwellIdle_unwatched c r)) (Chan.dwellsToward_enterDwell _ _)
    ⟨⟨rfl, rfl, rfl, rfl, rfl⟩, rfl⟩

variable (motion : (s.ch c).ms.motion = some m)
include motion

theorem State.stallEnds_seek (running : (s.ch c).ms.state = .startup ∨ (s.ch c).ms.state = .travel) (seeking : m.seeking = true) :
    s.StallEnds c .startup none (fun u => u.pd.position = 0 ∧ u.pd.known = true ∧
      u.pd.travel = (s.ch c).pd.travel ∧ u.ms.reversal = 0 ∧ u.ms.override = false ∧ u.ms.motion = some (.normalize .openUp) ∧
      u.rps.cells = Vector.replicate 64 ⟨.empty, 0, 0, 0⟩ ∧ u.rps.summary = (s.ch c).rps.summary) := by
  have sought : (s.unwatched c).stall c = s.setCh c (s.ch c).stopWatchdog.endOfSeek := by
    rw [State.stall_seeking (by rw [State.ch_unwatched]; exact running) (by rw [State.ch_unwatched]; exact motion) seeking,
      State.ch_unwatched, State.setCh_unwatched]
  obtain ⟨state, successor, mode, applied, step, pwm, watchdog, -, timer⟩ := (s.ch c).stopWatchdog.dwellsToward_enterDwell .startup
  exact State.stallEnds_quiet watched sought
    ⟨state, successor, mode, applied, step, pwm, watchdog, fun other => absurd rfl other, timer⟩
    ⟨rfl, rfl, rfl, rfl, rfl, rfl, rfl, rfl⟩

variable (closing : (s.ch c).ms.state = .travel ∧ m.dir = .closing ∧ m.seeking = false)
include closing

theorem State.stallEnds_soft (soft : (s.ch c).ms.active.get .endMode = 1) (atEnd : (s.ch c).AtClosedEnd) :
    s.StallEnds c (.idle .blocked) none (fun u => (s.ch c).StandsStill u ∧ u.ms.reversal = (s.ch c).ms.reversal) :=
  State.stallEnds_idle watched ((State.stall_unwatched_end motion closing atEnd).trans (if_pos soft))

section
variable (hard : ¬(s.ch c).ms.active.get .endMode = 1)
include hard

theorem State.stallEnds_unknown (unknown : (s.ch c).pd.known = false) :
    s.StallEnds c (.idle .completedClosed) none (fun u => u.pd.position = 0 ∧
      u.pd.known = true ∧ u.pd.travel = min 65535 ((s.ch c).pd.travel + 1) ∧ u.ms.reversal = 0 ∧ u.ms.override = false ∧
      u.rps.cells = (s.ch c).rps.cells ∧ u.rps.summary = ⟨.barredPosition, 0, 0, 0, 0, 0⟩) := by
  obtain ⟨dwells, travel, reversal, override, rps, position, known, -⟩ :=
    ((s.ch c).stopWatchdog.setPosition 0).completeClosed_spec true false
  rw [Chan.adapt_barredPosition] at rps
  exact State.stallEnds_quiet watched
    ((State.stall_unwatched_hard motion closing hard (.inl unknown)).trans (if_pos unknown)) dwells
    ⟨position, known, travel, reversal, override, (congrArg Profile.cells rps).trans rfl, congrArg Profile.summary rps⟩

variable (known : (s.ch c).pd.known = true) (inSeal : (s.ch c).pd.position < ((s.ch c).ms.active.get .zSeal : Int))
include known inSeal

theorem State.stallEnds_within (within : (s.ch c).pd.position.natAbs ≤ (s.ch c).ms.active.get .endTolerance) :
    s.StallEnds c (.idle .completedClosed) none (fun u => u.pd.position = 0 ∧ u.pd.known = true ∧
      u.pd.travel = min 65535 ((s.ch c).pd.travel + 1) ∧ u.ms.reversal = 0 ∧ u.ms.override = false ∧
      u.ee.sticky = (s.ch c).ee.sticky ∧ u.rps = ((s.ch c).adapt false false m.filling).rps) := by
  obtain ⟨dwells, travel, reversal, override, rps, position, stays, sticky⟩ :=
    ((s.ch c).stopWatchdog.setPosition 0).completeClosed_spec false false
  have fills : ((s.ch c).stopWatchdog.setPosition 0).filling = m.filling := by
    change (s.ch c).ms.motion.any Motion.filling = _
    rw [motion]
    rfl
  rw [fills] at rps
  refine State.stallEnds_quiet watched ((State.stall_unwatched_hard motion closing hard (.inr inSeal)).trans ?_) dwells
    ⟨position, stays, travel, reversal, override, sticky, rps.trans (Chan.adapt_congr false false m.filling rfl rfl rfl)⟩
  rw [if_neg (by simp [known]), if_pos (Chan.drifted_eq_false.2 within)]

variable (beyond : (s.ch c).ms.active.get .endTolerance < (s.ch c).pd.position.natAbs)
include beyond

theorem State.stallEnds_drift_masked (masked : (s.ch c).ms.active.get .maskDrift = 1) :
    s.StallEnds c (.idle .completedClosed) none (fun u => u.pd.position = 0 ∧ u.pd.known = true ∧
      u.pd.travel = min 65535 ((s.ch c).pd.travel + 1) ∧ u.ms.reversal = 0 ∧ u.ee.sticky.drift = true ∧
      u.rps.cells = (s.ch c).rps.cells ∧ u.rps.summary = ⟨.barredDrift, 0, 0, 0, 0, 0⟩) := by
  obtain ⟨dwells, travel, reversal, -, rps, position, stays, sticky⟩ :=
    (((s.ch c).stopWatchdog.raise .drift).setPosition 0).completeClosed_spec false true
  rw [Chan.adapt_barredDrift] at rps
  refine State.stallEnds_quiet watched ((State.stall_unwatched_hard motion closing hard (.inr inSeal)).trans ?_) dwells
    ⟨position, stays, travel, reversal, congrArg ConditionFlags.drift sticky, (congrArg Profile.cells rps).trans rfl,
      congrArg Profile.summary rps⟩
  rw [if_neg (by simp [known]), if_neg (fun h => absurd (Chan.drifted_eq_false.1 h) (not_le.2 beyond)), if_pos masked]

theorem State.stallEnds_drift (unmasked : (s.ch c).ms.active.get .maskDrift ≠ 1) :
    s.StallEnds c (.fault .drift) (some (s.conditionRecord c .drift (s.ch c).pd.position false)) (fun u =>
      u.pd.position = (s.ch c).pd.position ∧ u.pd.known = false ∧ u.pd.travel = (s.ch c).pd.travel ∧
      u.ms.reversal = (s.ch c).ms.reversal ∧ u.ee.sticky.drift = true ∧
      u.rps.cells = (s.ch c).rps.cells ∧ u.rps.summary = ⟨.barredDrift, 0, 0, 0, 0, 0⟩) := by
  refine State.stallEnds_recorded watched (u := (s.ch c).stopWatchdog.driftLost.enterDwell (.fault .drift))
    (v := (s.ch c).stopWatchdog.driftLost) (q := .condition .drift) (p := (s.ch c).stopWatchdog.driftLost.pd.position)
    (known := (s.ch c).stopWatchdog.driftLost.pd.known)
    ((State.stall_unwatched_hard motion closing hard (.inr inSeal)).trans ?_) ?_
    (Chan.dwellsToward_enterDwell _ _) ⟨rfl, rfl, rfl, rfl, rfl, rfl, rfl⟩
  · rw [if_neg (by simp [known]), if_neg (fun h => absurd (Chan.drifted_eq_false.1 h) (not_le.2 beyond)), if_neg unmasked]
  · unfold State.fillRecord State.conditionRecord
    dsimp only
    rw [State.ch_setCh_self]
    rfl

end

variable (known : (s.ch c).pd.known = true) (aboveSeal : ¬(s.ch c).pd.position < ((s.ch c).ms.active.get .zSeal : Int))
include known aboveSeal

theorem State.stallEnds_override (override : (s.ch c).ms.override = true) :
    s.StallEnds c (.idle .overrideStop) (some (s.stallRecord c .overrideStop (s.ch c).ms.reversal)) (fun u =>
      (s.ch c).StandsStill u ∧ u.ms.reversal = (s.ch c).ms.reversal ∧ u.ms.override = true ∧ u.ms.marker = (s.ch c).ms.marker) := by
  refine State.stallEnds_recorded watched (u := (s.ch c).stopWatchdog.enterDwell (.idle .overrideStop)) (v := (s.ch c).stopWatchdog)
    (q := .overrideStop) (p := (s.ch c).pd.position) (known := (s.ch c).pd.known) ?_ ?_ (Chan.dwellsToward_enterDwell _ _)
    ⟨⟨rfl, rfl, rfl, rfl, rfl⟩, rfl, override, rfl⟩
  · rw [State.stall_unwatched_pinch motion closing known aboveSeal,
      State.pinch_overridden _ _ (by rw [State.ch_unwatched]; exact override), State.ch_unwatched]
    rfl
  · exact State.fillRecord_stall (v := (s.ch c).stopWatchdog) rfl ⟨rfl, rfl⟩ rfl rfl rfl

/-- The pinch response's own cells: counter, flag, marker and back-off target (R153). -/
def Chan.Responds (k u : Chan) : Prop :=
  k.StandsStill u ∧ u.ms.reversal = min 7 (k.ms.reversal + 1) ∧
    (u.ms.override = true ↔ k.ms.override = true ∨ k.ms.active.get .reversalLimit ≤ min 7 (k.ms.reversal + 1)) ∧ u.ms.marker = true ∧
    u.ms.backoff = some ⟨min (k.ms.active.get .travelLength : Int) (k.pd.position + k.ms.active.get .backoffDistance), none⟩

theorem State.stallEnds_response (noOverride : (s.ch c).ms.override = false) :
    s.StallEnds c .backoff (some (s.stallRecord c .pinchStall (min 7 ((s.ch c).ms.reversal + 1)))) (s.ch c).Responds :=
  State.stallEnds_recorded watched (State.stall_unwatched_responds motion closing known aboveSeal noOverride)
    (State.stallRecord_response known) (Chan.dwellsToward_enterDwell _ _)
    ⟨⟨rfl, rfl, rfl, rfl, rfl⟩, rfl, by simp [Chan.enterDwell, Chan.pinched, Chan.stopWatchdog], rfl, rfl⟩

end

theorem State.StallEnds.imp {s : State} {c : ChanId} {x : Successor} {taken : Option Incident} {more less : Chan → Prop}
    (h : s.StallEnds c x taken more) (weaker : ∀ u, more u → less u) : s.StallEnds c x taken less := by
  obtain ⟨t, run, dwells, holds, rest⟩ := h
  exact ⟨t, run, dwells, weaker _ holds, rest⟩

/-- Settles O51. -/
theorem stallIsTakenByStateAndMotion : Obligations.StallIsTakenByStateAndMotion := by
  intro s c m watched k st inSeal soft closing newest stopRecord records ends kept
  refine ⟨fun state => ?_, fun motion => ⟨fun seeking running => ?_, fun state drives => ?_, fun state opens => ?_,
    fun isClosing isSoft atEnd => ?_, fun isClosing hard unknown => ?_, fun isClosing hard known isSealed within => ?_,
    fun isClosing hard known isSealed beyond masked => ?_, fun isClosing hard known isSealed beyond unmasked => ?_,
    fun isClosing known above override => ?_, fun isClosing known above noOverride => ?_⟩⟩
  · exact State.stallEnds_idle watched (State.stall_backoff (by rw [State.ch_unwatched]; exact state))
  · exact State.stallEnds_seek watched motion running seeking
  · exact State.stallEnds_idle watched
      (State.stall_startup (by rw [State.ch_unwatched]; exact state) (by rw [State.ch_unwatched]; exact motion) drives)
  · exact State.stallEnds_idle watched
      (State.stall_opening (by rw [State.ch_unwatched]; exact state) (by rw [State.ch_unwatched]; exact motion) opens)
  · exact State.stallEnds_soft watched motion isClosing isSoft atEnd
  · exact State.stallEnds_unknown watched motion isClosing hard unknown
  · exact State.stallEnds_within watched motion isClosing hard known isSealed within
  · exact State.stallEnds_drift_masked watched motion isClosing hard known isSealed beyond masked
  · exact State.stallEnds_drift watched motion isClosing hard known isSealed beyond unmasked
  · exact State.stallEnds_override watched motion isClosing known above override
  · refine State.StallEnds.imp (less := fun u => kept u ∧ u.ms.reversal = min 7 (k.ms.reversal + 1) ∧ u.ms.marker = true)
      (State.stallEnds_response watched motion isClosing known above noOverride) fun u responds => ?_
    obtain ⟨stands, reversal, -, marker, -⟩ := responds
    exact ⟨stands, reversal, marker⟩

/-- With no record free the incident is counted lost, and nothing is told (R176). -/
theorem State.recorded_lost {s : State} (c : ChanId) (v u : Chan) (q : IncidentCause) (p : Int) (known : Bool) (waits : s.noticesWait)
    (empty : s.pool.free = []) :
    (((s.setCh c v).takeRecord c q p known).setCh c u).serve.link.notices = s.link.notices := by
  rw [State.takeRecord_nil (s.setCh c v) c q p known empty, State.serve_link]
  exact Link.serve_notices_of_wait s waits (s.setCh c v).link rfl rfl

/-- Settles O52. -/
theorem pinchResponseTakesARecord : Obligations.PinchResponseTakesARecord := by
  intro s c m watched motion state closes drives known above noOverride k n
  have closing : (s.ch c).ms.state = .travel ∧ m.dir = .closing ∧ m.seeking = false := ⟨state, closes, drives⟩
  have aboveSeal : ¬(s.ch c).pd.position < ((s.ch c).ms.active.get .zSeal : Int) := not_lt.2 above
  have stalled := State.stall_unwatched_responds motion closing known aboveSeal noOverride
  have incident := State.stallRecord_response known
  obtain ⟨chan, record, others, shared⟩ := s.recorded c (k.stopWatchdog.pinched k.pd.position)
    ((k.stopWatchdog.pinched k.pd.position).enterDwell .backoff) .pinchStall k.pd.position true
  have lost := s.recorded_lost c (k.stopWatchdog.pinched k.pd.position)
    ((k.stopWatchdog.pinched k.pd.position).enterDwell .backoff) .pinchStall k.pd.position true
  refine ⟨_, (exec_stallWatchdogExpiry c s).trans (by rw [State.watchdogExpiry_watched watched, stalled]), ?_⟩
  rw [show (s.setCh c (k.stopWatchdog.pinched k.pd.position)).fillRecord c .pinchStall k.pd.position true =
    s.stallRecord c .pinchStall n from incident] at record
  obtain ⟨taken, dropped⟩ := record
  rw [chan]
  refine ⟨Chan.dwellsToward_enterDwell _ _, rfl, ?_, rfl, rfl, fun r rest free => ?_, fun empty => ⟨dropped empty, fun waits =>
    lost waits empty⟩, others, shared⟩
  · simp [Chan.enterDwell, Chan.pinched, Chan.stopWatchdog, n, show k.ms.override = false from noOverride]
  · obtain ⟨isFree, waiting, count, isRecord, same, told⟩ := taken r rest free
    refine ⟨isFree, waiting, count, same, isRecord.trans ?_, told⟩
    rw [State.stallRecord, known]

end Sys2Proof.Machine
end

section
/-! PROOFS. The adaptation of a cell and of a profile. -/

namespace Sys2Proof.Machine

/-! ## One cell (R122 to R125) -/

section
variable {c : Cell} {p : ScratchPair} {sh : Nat}

theorem Cell.adapt_unmeasured (unmeasured : p.count = 0) : c.adapt p sh = c := if_pos unmeasured

theorem Cell.adapt_fresh (measured : p.count ≠ 0) (empty : c.state = .empty) : c.adapt p sh = ⟨.valid, p.sum / p.count, 1, 0⟩ := by
  unfold Cell.adapt
  rw [if_neg measured, empty]
  rfl

theorem Cell.inBand_iff {mean : Nat} : c.inBand mean = true ↔ ((mean : Int) - c.reference).natAbs ≤ c.reference / 4 :=
  decide_eq_true_iff

theorem Cell.adapt_inside (measured : p.count ≠ 0) (valid : c.state = .valid) (inside : c.inBand (p.sum / p.count) = true) :
    c.adapt p sh = c.adaptInBand (p.sum / p.count) sh := by
  unfold Cell.adapt
  rw [if_neg measured, valid]
  exact if_pos inside

theorem Cell.adapt_outside (measured : p.count ≠ 0) (valid : c.state = .valid) (outside : ¬c.inBand (p.sum / p.count) = true) :
    c.adapt p sh = c.adaptOutOfBand (p.sum / p.count) := by
  unfold Cell.adapt
  rw [if_neg measured, valid]
  exact if_neg outside

theorem Cell.adaptInBand_reference (mean : Nat) : ((c.adaptInBand mean sh).reference : Int) =
    max 1 (min 65535 ((c.reference : Int) + ((mean : Int) - c.reference).tdiv (2 ^ sh))) := by
  simp only [Cell.adaptInBand, clampInt]
  push_cast
  omega

end

/-! ## The adapted profile (R120, R130) -/

theorem adaptCells_get (cells : Vector Cell 64) (scratch : Vector ScratchPair 64) (sh : Nat) (i : Fin 64) :
    (adaptCells cells scratch sh)[i] = cells[i].adapt scratch[i] sh := by
  simp [adaptCells]

theorem fillGaps_source {cells after : Vector Cell 64} {scratch : Vector ScratchPair 64} {l z : Nat} {i j : Fin 64}
    (source : gapSource cells after scratch l z i = some j) :
    (fillGaps cells after scratch l z)[i] = ⟨.valid, after[j].reference, 1, 0⟩ := by
  simp [fillGaps, source]

theorem fillGaps_kept {cells after : Vector Cell 64} {scratch : Vector ScratchPair 64} {l z : Nat} {i : Fin 64}
    (noSource : gapSource cells after scratch l z i = none) : (fillGaps cells after scratch l z)[i] = after[i] := by
  simp [fillGaps, noSource]

theorem firstFilledAt_iff {cells : Vector Cell 64} {scratch : Vector ScratchPair 64} {i : Fin 64} :
    firstFilledAt cells scratch i = true ↔ scratch[i].count ≠ 0 ∧ cells[i].state = .empty := by
  rw [firstFilledAt, Bool.and_eq_true, decide_eq_true_iff, decide_eq_true_iff]

theorem mem_firstFilled {cells : Vector Cell 64} {scratch : Vector ScratchPair 64} {i : Fin 64} :
    i ∈ allCells.filter (firstFilledAt cells scratch) ↔ scratch[i].count ≠ 0 ∧ cells[i].state = .empty := by
  rw [List.mem_filter, firstFilledAt_iff]
  exact and_iff_right (List.mem_finRange i)

/-- An EMPTY cell the profile requires, without a measurement (R119, R130). -/
def Gap (cells : Vector Cell 64) (scratch : Vector ScratchPair 64) (l z : Nat) (i : Fin 64) : Prop :=
  z / ((l + 63) / 64) ≤ i.val ∧ i.val ≤ min 63 (l / ((l + 63) / 64)) ∧ scratch[i].count = 0 ∧ cells[i].state = .empty

section
variable {cells : Vector Cell 64} {scratch : Vector ScratchPair 64} {sh l z : Nat} {i j : Fin 64}

theorem gapSource_gap (gap : Gap cells scratch l z i) : gapSource cells (adaptCells cells scratch sh) scratch l z i =
    nearestCell i (allCells.filter (firstFilledAt cells scratch)) := by
  obtain ⟨low, high, unmeasured, empty⟩ := gap
  refine if_pos (Bool.and_eq_true_iff.2 ⟨?_, ?_⟩)
  · exact decide_eq_true ⟨low, high⟩
  · rw [decide_eq_true_iff, adaptCells_get, Cell.adapt_eq_empty]
    exact ⟨unmeasured, empty⟩

theorem gapSource_no_gap (noGap : ¬Gap cells scratch l z i) : gapSource cells (adaptCells cells scratch sh) scratch l z i = none := by
  refine if_neg fun h => noGap ?_
  obtain ⟨required, empty⟩ := Bool.and_eq_true_iff.1 h
  rw [decide_eq_true_iff, adaptCells_get, Cell.adapt_eq_empty] at empty
  obtain ⟨low, high⟩ := of_decide_eq_true required
  exact ⟨low, high, empty.1, empty.2⟩

theorem nearestCell_unique {k j : Fin 64} {js : List (Fin 64)} (mem : j ∈ js)
    (nearest : ∀ h ∈ js, cellDistance k j < cellDistance k h ∨ (cellDistance k j = cellDistance k h ∧ h ≤ j)) :
    nearestCell k js = some j := by
  cases found : nearestCell k js with
  | none =>
    rw [(nearestCell_eq_none k js).1 found] at mem
    cases mem
  | some b =>
    obtain ⟨memB, nearestB⟩ := nearestCell_spec k js b found
    have first := nearest b memB
    have second := nearestB j mem
    congr 1
    omega

end

/-! ## The adapted profile of a channel -/

/-- The cells after the adaptation of all 64. -/
def Chan.adaptedCells (k : Chan) : Vector Cell 64 := adaptCells k.rps.cells k.rps.scratch (k.ms.active.get .adaptShift)

/-- The cells after an adaptation and, in FILL, the gap completion. -/
def Chan.completedCells (k : Chan) (filling : Bool) : Vector Cell 64 :=
  if filling then
    fillGaps k.rps.cells k.adaptedCells k.rps.scratch (k.ms.active.get .travelLength) (k.ms.active.get .zSeal)
  else k.adaptedCells

theorem Chan.adapt_adapted {k : Chan} {filling : Bool} (clean : k.ms.taint = false ∨ filling = true) :
    (k.adapt false false filling).rps = ⟨k.completedCells filling, clearScratch,
      adaptSummary k.rps.cells k.adaptedCells (k.completedCells filling) k.rps.scratch⟩ := by
  have judged : judgeAdaptation false false k.ms.taint filling = .adapted := by
    rcases clean with h | h
    · rw [h]
      cases filling <;> rfl
    · rw [h]
      cases k.ms.taint <;> rfl
  unfold Chan.adapt
  dsimp only
  rw [judged]
  rfl

theorem Chan.adapt_tainted {k : Chan} (tainted : k.ms.taint = true) : (k.adapt false false false).rps =
    { k.rps with scratch := clearScratch, summary := ⟨.barredTaint, 0, 0, 0, 0, 0⟩ } := by
  unfold Chan.adapt
  dsimp only
  rw [tainted]
  rfl

section
variable (k : Chan) {filling : Bool} {i j : Fin 64}

/-- A cell first filled by its pair (R123). -/
def Chan.Fresh (i : Fin 64) : Prop := k.rps.scratch[i].count ≠ 0 ∧ k.rps.cells[i].state = .empty

/-- A cell the gap completion of a FILL may fill (R130). -/
def Chan.FillGap (filling : Bool) (i : Fin 64) : Prop :=
  filling = true ∧ Gap k.rps.cells k.rps.scratch (k.ms.active.get .travelLength) (k.ms.active.get .zSeal) i

theorem Chan.adaptedCells_get : k.adaptedCells[i] = k.rps.cells[i].adapt k.rps.scratch[i] (k.ms.active.get .adaptShift) :=
  adaptCells_get _ _ _ i

variable {k}

theorem Chan.completedCells_kept (stays : ¬k.FillGap filling i ∨ ∀ j, ¬k.Fresh j) :
    (k.completedCells filling)[i] = k.adaptedCells[i] := by
  unfold Chan.completedCells
  by_cases fills : filling = true
  · rw [if_pos fills]
    have noSource : gapSource k.rps.cells k.adaptedCells k.rps.scratch (k.ms.active.get .travelLength) (k.ms.active.get .zSeal) i
        = none := by
      by_cases gap : Gap k.rps.cells k.rps.scratch (k.ms.active.get .travelLength) (k.ms.active.get .zSeal) i
      · rw [Chan.adaptedCells, gapSource_gap gap, nearestCell_eq_none]
        refine List.eq_nil_iff_forall_not_mem.2 fun j mem => ?_
        rcases stays with noGap | noFresh
        · exact noGap ⟨fills, gap⟩
        · exact noFresh j (mem_firstFilled.1 mem)
      · exact gapSource_no_gap gap
    exact fillGaps_kept noSource
  · rw [if_neg fills]

theorem Chan.completedCells_filled (gap : k.FillGap filling i) (fresh : k.Fresh j)
    (nearest : ∀ h, k.Fresh h → cellDistance i j < cellDistance i h ∨ (cellDistance i j = cellDistance i h ∧ h ≤ j)) :
    (k.completedCells filling)[i] = ⟨.valid, k.rps.scratch[j].sum / k.rps.scratch[j].count, 1, 0⟩ := by
  obtain ⟨fills, gap⟩ := gap
  obtain ⟨measured, empty⟩ := fresh
  unfold Chan.completedCells
  rw [if_pos fills, fillGaps_source (j := j), Chan.adaptedCells_get, Cell.adapt_fresh measured empty]
  exact (gapSource_gap gap).trans
    (nearestCell_unique (mem_firstFilled.2 ⟨measured, empty⟩) fun h mem => nearest h (mem_firstFilled.1 mem))

theorem Chan.gapFilled_iff : ((k.completedCells filling)[i].state = .valid ∧ k.adaptedCells[i].state = .empty) ↔
    k.FillGap filling i ∧ ∃ j, k.Fresh j := by
  constructor
  · rintro ⟨valid, empty⟩
    by_contra none_
    have stays : ¬k.FillGap filling i ∨ ∀ j, ¬k.Fresh j := by
      by_cases gap : k.FillGap filling i
      · exact .inr fun j fresh => none_ ⟨gap, j, fresh⟩
      · exact .inl gap
    rw [Chan.completedCells_kept stays, empty] at valid
    cases valid
  · rintro ⟨⟨fills, gap⟩, j, fresh⟩
    have empty : k.adaptedCells[i].state = .empty := by
      obtain ⟨-, -, unmeasured, empty⟩ := gap
      rw [Chan.adaptedCells_get, Cell.adapt_eq_empty]
      exact ⟨unmeasured, empty⟩
    refine ⟨?_, empty⟩
    unfold Chan.completedCells
    rw [if_pos fills]
    cases found : nearestCell i (allCells.filter (firstFilledAt k.rps.cells k.rps.scratch)) with
    | some b =>
      have source : gapSource k.rps.cells k.adaptedCells k.rps.scratch (k.ms.active.get .travelLength) (k.ms.active.get .zSeal) i
          = some b := (gapSource_gap gap).trans found
      rw [fillGaps_source source]
    | none =>
      have mem := mem_firstFilled.2 fresh
      rw [(nearestCell_eq_none i _).1 found] at mem
      cases mem

end

/-- A count of cells is decided by the property it counts. -/
theorem countCells_of_iff {f : Fin 64 → Bool} {P : Fin 64 → Prop} [DecidablePred P] (same : ∀ i, f i = true ↔ P i) :
    countCells f = (List.finRange 64).countP (fun i => decide (P i)) := by
  rw [countCells_eq]
  exact List.countP_congr fun i _ => (same i).trans decide_eq_true_iff.symm

/-- Settles O57. -/
theorem cellAdaptation : Obligations.CellAdaptation := by
  refine ⟨fun c p sh => ?_, fun k unknown drift filling => ?_⟩
  · intro mean d
    refine ⟨Cell.adapt_unmeasured, Cell.adapt_fresh, fun measured valid inside => ?_, fun measured valid outside few => ?_,
      fun measured valid outside third => ?_⟩
    · rw [Cell.adapt_inside measured valid (Cell.inBand_iff.2 inside)]
      exact ⟨Cell.adaptInBand_reference _, rfl, rfl, valid⟩
    · rw [Cell.adapt_outside measured valid (fun h => absurd (Cell.inBand_iff.1 h) (not_le.2 outside)), Cell.adaptOutOfBand,
        if_neg (by omega)]
    · rw [Cell.adapt_outside measured valid (fun h => absurd (Cell.inBand_iff.1 h) (not_le.2 outside)), Cell.adaptOutOfBand,
        if_pos (by omega), valid]
  · intro u cells scratch barred adapted fresh measured inside l wc gap apart nearest
    obtain ⟨pd, ms, ee, out⟩ := k.adapt_fields unknown drift filling
    refine ⟨pd, out, ee, ms, fun isUnknown => ?_, fun isKnown drifted => ?_, fun isKnown inPlace tainted drives => ?_,
      fun isKnown inPlace clean => ?_⟩
    · simp only [barred, u, isUnknown]
      rfl
    · simp only [barred, u, isKnown, drifted]
      rfl
    · simp only [barred, u, isKnown, inPlace, drives]
      exact Chan.adapt_tainted tainted
    · have profile : u.rps = ⟨k.completedCells filling, clearScratch,
          adaptSummary k.rps.cells k.adaptedCells (k.completedCells filling) k.rps.scratch⟩ := by
        simp only [u, isKnown, inPlace]
        exact Chan.adapt_adapted clean
      rw [profile]
      refine ⟨rfl, fun i stays => ?_, fun i j isGap near => ?_, ?_⟩
      · exact (Chan.completedCells_kept stays).trans k.adaptedCells_get
      · refine Chan.completedCells_filled isGap near.1 fun h isFresh => ?_
        rw [cellDistance_eq, cellDistance_eq]
        exact near.2 h isFresh
      · have isMeasured (i : Fin 64) : (decide (scratch[i].count ≠ 0) && decide (cells[i].state = .valid)) = true ↔ measured i := by
          rw [Bool.and_eq_true, decide_eq_true_iff, decide_eq_true_iff]
        have isInside (i : Fin 64) : cells[i].inBand scratch[i].mean = true ↔ inside i := Cell.inBand_iff
        simp only [adaptSummary]
        congr 1
        · exact countCells_of_iff fun i => firstFilledAt_iff
        · refine countCells_of_iff fun i => ?_
          rw [Bool.and_eq_true, isMeasured, isInside]
        · refine countCells_of_iff fun i => ?_
          rw [Bool.and_eq_true, Bool.and_eq_true, isMeasured, Bool.not_eq_true', ← Bool.not_eq_true, isInside, Bool.not_eq_true',
            decide_eq_false_iff_not, and_assoc]
          refine and_congr_right fun _ => and_congr_right fun _ => ?_
          change _ ↔ k.rps.cells[i].strikes < 2
          omega
        · refine countCells_of_iff fun i => ?_
          rw [Bool.and_eq_true, Bool.and_eq_true, isMeasured, Bool.not_eq_true', ← Bool.not_eq_true, isInside, decide_eq_true_iff,
            and_assoc]
          refine and_congr_right fun _ => and_congr_right fun _ => ?_
          change _ ↔ 2 ≤ k.rps.cells[i].strikes
          omega
        · refine countCells_of_iff fun i => ?_
          rw [Bool.and_eq_true, decide_eq_true_iff, decide_eq_true_iff, Chan.gapFilled_iff]
          exact Iff.rfl

end Sys2Proof.Machine
end

section
/-! PROOFS. The supply sample. -/

namespace Sys2Proof.Machine

theorem exec_supplySample (mv : Nat) (s : State) : exec (.supplySample mv) s = .next (s.supplySample mv).serve := rfl

/-! ## The classification (R60) -/

/-- The supply state between three bounds. -/
theorem supplyState_between {lo mid hi u : Nat} (low : lo ≤ mid) (high : mid ≤ hi) :
    let st : SupplyState := if u < lo then .cutoff else if u < mid then .low else if u ≤ hi then .normal else .high
    (st = .cutoff ↔ u < lo) ∧ (st = .low ↔ lo ≤ u ∧ u < mid) ∧ (st = .normal ↔ mid ≤ u ∧ u ≤ hi) ∧ (st = .high ↔ hi < u) := by
  intro st
  by_cases h1 : u < lo
  · simp only [st, if_pos h1, reduceCtorEq, true_iff, false_iff]
    omega
  · by_cases h2 : u < mid
    · simp only [st, if_neg h1, if_pos h2, reduceCtorEq, true_iff, false_iff]
      omega
    · by_cases h3 : u ≤ hi
      · simp only [st, if_neg h1, if_neg h2, if_pos h3, reduceCtorEq, true_iff, false_iff]
        omega
      · simp only [st, if_neg h1, if_neg h2, if_neg h3, reduceCtorEq, true_iff, false_iff]
        omega

theorem classify_iff (st : SupplyState) (u : Nat) :
    (classify st u = .cutoff ↔ u < (if st = .cutoff then 6300 else 6000)) ∧
    (classify st u = .low ↔ (if st = .cutoff then 6300 else 6000) ≤ u ∧ u < (if st = .cutoff ∨ st = .low then 9300 else 9000)) ∧
    (classify st u = .normal ↔ (if st = .cutoff ∨ st = .low then 9300 else 9000) ≤ u ∧
      u ≤ (if st = .high then 15700 else 16000)) ∧
    (classify st u = .high ↔ (if st = .high then 15700 else 16000) < u) := by
  cases st <;> exact supplyState_between (by decide) (by decide)

theorem filteredSupply_eq (hist : List Nat) : filteredSupply hist = if hist.length = 4 then hist.sum / 4 else hist.headD 0 := by
  rw [filteredSupply, List.sum_eq_foldl]

theorem Supply.sample_state {su : Supply} (mv : Nat) (sampled : su.hist ≠ []) :
    (su.sample mv).state = classify su.state (su.sample mv).u := by
  have notFirst : su.hist.isEmpty = false := List.isEmpty_eq_false_iff.2 sampled
  unfold Supply.sample
  dsimp only
  rw [notFirst, if_neg Bool.false_ne_true]

/-! ## A sample that keeps the state, and one that changes it -/

/-- The sample taken into the history, nothing else done. -/
def State.sampled (s : State) (mv : Nat) : State := { s with supply := s.supply.sample mv }

section
variable {s : State} {mv : Nat}

theorem State.supplySample_kept (kept : (s.supply.sample mv).state = s.supply.state) : s.supplySample mv = s.sampled mv := by
  unfold State.supplySample
  exact if_pos (by rw [kept, beq_self_eq_true, Bool.or_true])

theorem State.supplySample_changed (sampled : s.supply.hist ≠ []) (changed : (s.supply.sample mv).state ≠ s.supply.state) :
    s.supplySample mv = (s.sampled mv).supplyChanged := by
  unfold State.supplySample
  refine if_neg ?_
  rw [List.isEmpty_eq_false_iff.2 sampled, beq_false_of_ne changed]
  exact Bool.false_ne_true

end

theorem State.supplyChanged_cutoff {s : State} (state : s.supply.state = .cutoff) :
    s.supplyChanged = allChans.foldl State.cutoffOne s.postSupply := by
  unfold State.supplyChanged
  dsimp only
  rw [state]

theorem State.supplyChanged_normal {s : State} (state : s.supply.state = .normal) : s.supplyChanged = s.postSupply.grantPass := by
  unfold State.supplyChanged
  dsimp only
  rw [state]

theorem State.supplyChanged_between {s : State} (state : s.supply.state = .low ∨ s.supply.state = .high) :
    s.supplyChanged = s.postSupply := by
  unfold State.supplyChanged
  dsimp only
  rcases state with h | h <;> rw [h]

/-! ## The entry into CUTOFF (R64) -/

/-- What the entry into CUTOFF makes of a channel: one that holds a slot comes to rest. -/
def Chan.cut (k : Chan) : Chan :=
  match k.ms.state with
  | .startup | .travel | .backoff => k.discardScratch.enterIdle
  | .dwell =>
    match k.successor with
    | some (.fault x) => k.discardScratch.rest .fault (.condition x)
    | _ => k.enterIdle
  | .disabled | .idle | .queued | .fault => k

/-- One channel has been cut off: its state, and its slot where it held one. -/
structure State.Cuts (s t : State) (c : ChanId) : Prop where
  chan : t.ch c = (s.ch c).cut
  arbiter : t.arbiter = if (s.ch c).ms.state.holding = true then (s.detach c).arbiter else s.arbiter
  device : s.SameDevice t
  pool : t.pool = s.pool

theorem State.arbiter_endIdle_cutoff {s : State} (c : ChanId) (r : MotionResult) (off : s.supply.state ≠ .normal) :
    (s.endIdle c r).arbiter = (s.detach c).arbiter := by
  rw [State.endIdle, State.leaveArbiter_of_not_canGrant]
  · rfl
  · exact off

theorem State.arbiter_enterFault_cutoff {s : State} (c : ChanId) (q : FaultCause) (off : s.supply.state ≠ .normal) :
    (s.enterFault c q).arbiter = (s.detach c).arbiter := by
  rw [State.enterFault, State.leaveArbiter_of_not_canGrant]
  · simp [State.detach]
  · rw [State.stopToFault_supply]
    exact off

theorem State.sameDevice_endIdle (s : State) (c : ChanId) (r : MotionResult) : s.SameDevice (s.endIdle c r) := by
  simp [State.SameDevice]

theorem State.sameDevice_enterFault (s : State) (c : ChanId) (q : FaultCause) : s.SameDevice (s.enterFault c q) := by
  simp [State.SameDevice, State.enterFault]

/-- A channel that ends in IDLE at the entry into CUTOFF, its scratch discarded before or not. -/
theorem State.cuts_endIdle {s : State} {c : ChanId} {k : Chan} {r : MotionResult} (off : s.supply.state ≠ .normal)
    (holds : (s.ch c).ms.state.holding = true) (cut : (s.ch c).cut = k.enterIdle) :
    s.Cuts ((s.setCh c k).endIdle c r) c where
  chan := by rw [State.ch_endIdle_self, State.ch_setCh_self, cut]
  arbiter := by
    rw [if_pos holds]
    exact State.arbiter_endIdle_cutoff (s := s.setCh c k) c r off
  device := (s.setCh c k).sameDevice_endIdle c r
  pool := State.endIdle_pool (s.setCh c k) c r

theorem State.cuts_cutoffOne {s : State} (c : ChanId) (off : s.supply.state = .cutoff) : s.Cuts (s.cutoffOne c) c := by
  have abnormal : s.supply.state ≠ .normal := by rw [off]; exact nofun
  have keeps : ∀ r, s.endIdle c r = (s.setCh c (s.ch c)).endIdle c r := fun r => by rw [State.setCh_ch]
  unfold State.cutoffOne
  cases state : (s.ch c).ms.state with
  | startup | travel | backoff =>
    exact State.cuts_endIdle abnormal (by rw [state]; rfl) (by rw [Chan.cut, state])
  | dwell =>
    have holds : (s.ch c).ms.state.holding = true := by rw [state]; rfl
    dsimp only
    cases successor : (s.ch c).successor with
    | none =>
      dsimp only
      rw [keeps]
      exact State.cuts_endIdle abnormal holds (by simp only [Chan.cut, state, successor])
    | some x =>
      cases x with
      | idle r | startup | backoff =>
        dsimp only
        rw [keeps]
        exact State.cuts_endIdle abnormal holds (by simp only [Chan.cut, state, successor])
      | fault x =>
        exact ⟨by simp only [State.ch_enterFault_self, Chan.cut, state, successor],
          by rw [if_pos holds]; exact State.arbiter_enterFault_cutoff c _ abnormal,
          s.sameDevice_enterFault c _, by simp [State.enterFault]⟩
  | disabled | idle | queued | fault =>
    exact ⟨by rw [Chan.cut, state], by rw [state]; rfl, ⟨rfl, rfl, rfl, rfl, rfl⟩, rfl⟩

/-- The channels of a list have been cut off. -/
structure State.CutOff (s t : State) (cs : List ChanId) : Prop where
  chan : ∀ d, t.ch d = if d ∈ cs then (s.ch d).cut else s.ch d
  queue : t.arbiter.queue = s.arbiter.queue.filter (fun e => !(decide (e.chan ∈ cs) && (s.ch e.chan).ms.state.holding))
  holders : ∀ d, d ∈ t.arbiter.holders ↔ d ∈ s.arbiter.holders ∧ ¬(d ∈ cs ∧ (s.ch d).ms.state.holding = true)
  device : s.SameDevice t
  pool : t.pool = s.pool

theorem State.cutOff_foldl : ∀ (cs : List ChanId) (s : State), cs.Nodup → s.supply.state = .cutoff →
    s.CutOff (cs.foldl State.cutoffOne s) cs
  | [], s, _, _ => ⟨fun d => by simp, by simp, fun d => by simp, ⟨rfl, rfl, rfl, rfl, rfl⟩, rfl⟩
  | c :: cs, s, nodup, off => by
    obtain ⟨fresh, nodup'⟩ := List.nodup_cons.1 nodup
    obtain ⟨cut, arbiter, ⟨device, lines, supply, clock, effort⟩, pool⟩ := State.cuts_cutoffOne c off
    obtain ⟨-, others, -⟩ := State.cutoffOne_notices s c off
    obtain ⟨chan', queue', holders', device', pool'⟩ := State.cutOff_foldl cs (s.cutoffOne c) nodup' (by rw [supply]; exact off)
    obtain ⟨sameDevice, sameLines, sameSupply, sameClock, sameEffort⟩ := device'
    rw [List.foldl_cons]
    refine ⟨fun d => ?_, ?_, fun d => ?_, ⟨sameDevice.trans device, sameLines.trans lines, sameSupply.trans supply,
      sameClock.trans clock, sameEffort.trans effort⟩, pool'.trans pool⟩
    · rw [chan' d]
      by_cases same : d = c
      · rw [same, if_neg fresh, if_pos (List.mem_cons_self ..), cut]
      · rw [others d same]
        simp only [List.mem_cons, same, false_or]
    · have before : (s.cutoffOne c).arbiter.queue =
          s.arbiter.queue.filter (fun e => !(decide (e.chan = c) && (s.ch c).ms.state.holding)) := by
        rw [arbiter]
        cases (s.ch c).ms.state.holding with
        | true => simp [State.detach, bne, BEq.beq]
        | false => simp
      rw [queue', before, List.filter_filter]
      refine List.filter_congr fun e _ => ?_
      by_cases same : e.chan = c
      · simp [same, fresh]
      · simp [same, others e.chan same]
    · rw [holders' d, arbiter]
      by_cases same : d = c
      · subst same
        by_cases holds : (s.ch d).ms.state.holding = true
        · simp [holds, State.mem_detach_holders]
        · simp [holds, fresh]
      · rw [others d same]
        by_cases holds : (s.ch c).ms.state.holding = true
        · simp [holds, State.mem_detach_holders, same]
        · simp [holds, same]

end Sys2Proof.Machine
end

section
/-! PROOFS. The statement on supply samples. -/

namespace Sys2Proof.Machine

theorem nodup_allChans : allChans.Nodup := List.nodup_finRange 8

/-! ## A channel cut off (R64) -/

theorem Chan.cut_apart {k : Chan} (apart : k.ms.state.holding = false) : k.cut = k := by
  unfold Chan.cut
  cases state : k.ms.state with
  | disabled | idle | queued | fault => rfl
  | startup | travel | dwell | backoff =>
    rw [state] at apart
    cases apart

/-- Outputs off, position, reversal counter and profile cells as before. -/
structure Chan.CutKeeps (k u : Chan) : Prop where
  mode : u.out.mode = .off
  applied : u.out.applied = 0
  position : u.pd.position = k.pd.position
  known : u.pd.known = k.pd.known
  reversal : u.ms.reversal = k.ms.reversal
  cells : u.rps.cells = k.rps.cells

theorem Chan.cut_keeps {k : Chan} (holds : k.ms.state.holding = true) : k.CutKeeps k.cut := by
  unfold Chan.cut
  cases state : k.ms.state with
  | startup | travel | backoff => exact ⟨rfl, rfl, rfl, rfl, rfl, rfl⟩
  | dwell =>
    rcases k.successor with _ | (_ | _ | _ | _)
    case none | some.idle | some.startup | some.backoff | some.fault => exact ⟨rfl, rfl, rfl, rfl, rfl, rfl⟩
  | disabled | idle | queued | fault =>
    rw [state] at holds
    cases holds

theorem Chan.cut_fault {k : Chan} {x : Condition} (h : k.successor = some (.fault x)) :
    k.cut.ms.state = .fault ∧ k.cut.ms.cause = .condition x := by
  unfold Chan.cut
  rw [Chan.dwell_of_successor h, h]
  exact ⟨rfl, rfl⟩

theorem Chan.cut_idle {k : Chan} (holds : k.ms.state.holding = true) (noFault : ∀ x, k.successor ≠ some (.fault x)) :
    k.cut.ms.state = .idle ∧ k.cut.ee.lane = none := by
  unfold Chan.cut
  cases state : k.ms.state with
  | startup | travel | backoff => exact ⟨rfl, rfl⟩
  | dwell =>
    cases successor : k.successor with
    | none => exact ⟨rfl, rfl⟩
    | some x =>
      cases x with
      | idle r | startup | backoff => exact ⟨rfl, rfl⟩
      | fault x => exact absurd successor (noFault x)
  | disabled | idle | queued | fault =>
    rw [state] at holds
    cases holds

/-! ## The MOTION_END of a channel cut off (R64, R162) -/

theorem Chan.cutEnd_apart {k : Chan} (old : Option MotionEnd) (apart : k.ms.state.holding = false) : k.cutEnd old = old := by
  unfold Chan.cutEnd
  cases state : k.ms.state with
  | disabled | idle | queued | fault => rfl
  | startup | travel | dwell | backoff =>
    rw [state] at apart
    cases apart

theorem Chan.cutEnd_stopped {k : Chan} (old : Option MotionEnd)
    (drives : k.ms.state.driving = true ∨ k.successor = some .startup ∨ k.successor = some .backoff) :
    k.cutEnd old = some ⟨.supplyCutoff, k.pd.position, k.pd.known⟩ := by
  unfold Chan.cutEnd
  rcases drives with h | h | h
  · rcases ChState.driving_iff.1 h with state | state | state <;> rw [state]
  · rw [Chan.dwell_of_successor h, h]
  · rw [Chan.dwell_of_successor h, h]

theorem Chan.cutEnd_idle {k : Chan} {r : MotionResult} (old : Option MotionEnd) (h : k.successor = some (.idle r)) :
    k.cutEnd old = some ⟨r, k.pd.position, k.pd.known⟩ := by
  unfold Chan.cutEnd
  rw [Chan.dwell_of_successor h, h]

theorem Chan.cutEnd_fault {k : Chan} {x : Condition} (old : Option MotionEnd) (h : k.successor = some (.fault x)) :
    k.cutEnd old = some ⟨.faultStop, k.pd.position, k.pd.known⟩ := by
  unfold Chan.cutEnd
  rw [Chan.dwell_of_successor h, h]

/-! ## What a sample leaves of the part -/

/-- Every sample leaves the sampled supply, and parameters, lines, clock and the shared evaluator as they were. -/
theorem State.supplyChanged_frame (s : State) : s.SameDevice s.supplyChanged ∧ s.supplyChanged.pool = s.pool := by
  cases state : s.supply.state with
  | cutoff =>
    rw [State.supplyChanged_cutoff state]
    obtain ⟨-, -, -, device, pool⟩ := State.cutOff_foldl allChans s.postSupply nodup_allChans state
    exact ⟨device, pool⟩
  | normal =>
    rw [State.supplyChanged_normal state]
    exact ⟨by simp [State.SameDevice], State.grantPass_pool _⟩
  | low =>
    rw [State.supplyChanged_between (.inl state)]
    exact ⟨⟨rfl, rfl, rfl, rfl, rfl⟩, rfl⟩
  | high =>
    rw [State.supplyChanged_between (.inr state)]
    exact ⟨⟨rfl, rfl, rfl, rfl, rfl⟩, rfl⟩

section
variable {s : State} {mv : Nat} (sampled : s.supply.hist ≠ [])
include sampled

theorem State.supplySample_frame : (s.sampled mv).SameDevice (s.supplySample mv) ∧ (s.supplySample mv).pool = s.pool := by
  by_cases kept : (s.supply.sample mv).state = s.supply.state
  · rw [State.supplySample_kept kept]
    exact ⟨⟨rfl, rfl, rfl, rfl, rfl⟩, rfl⟩
  · rw [State.supplySample_changed sampled kept]
    exact (s.sampled mv).supplyChanged_frame

theorem State.supplySample_supply : (s.supplySample mv).supply = s.supply.sample mv := by
  obtain ⟨⟨-, -, supply, -, -⟩, -⟩ := State.supplySample_frame (mv := mv) sampled
  exact supply

/-- The entry into CUTOFF, channel by channel. -/
theorem State.supplySample_cutoff (enters : s.supply.state ≠ .cutoff) (cutoff : (s.supply.sample mv).state = .cutoff) :
    (s.sampled mv).postSupply.CutOff (s.supplySample mv) allChans := by
  rw [State.supplySample_changed sampled (by rw [cutoff]; exact enters.symm), State.supplyChanged_cutoff cutoff]
  exact State.cutOff_foldl allChans _ nodup_allChans cutoff

/-- The notices of a change of supply state: SUPPLY_STATE, and at the entry into CUTOFF the motions' ends. -/
theorem State.supplySample_notices (changed : (s.supply.sample mv).state ≠ s.supply.state) :
    let old := s.link.notices.motionEnd
    (s.supplySample mv).link = { s.link with notices := { s.link.notices with
      supply := some ((s.supply.sample mv).state, (s.supply.sample mv).u)
      motionEnd := (s.supplySample mv).link.notices.motionEnd } } ∧
    ∀ d : ChanId, (s.supplySample mv).link.notices.motionEnd[d] =
      if (s.supply.sample mv).state = .cutoff then (s.ch d).cutEnd old[d] else old[d] := by
  intro old
  rw [State.supplySample_changed sampled changed]
  cases state : (s.supply.sample mv).state with
  | cutoff =>
    rw [State.supplyChanged_cutoff state]
    obtain ⟨link, ends⟩ := State.cutoff_fold allChans (s.sampled mv).postSupply nodup_allChans state
    refine ⟨link.trans ?_, fun d => ?_⟩
    · rw [← state]
      rfl
    · rw [ends d, if_pos (mem_allChans d), if_pos rfl]
      rfl
  | normal =>
    rw [State.supplyChanged_normal state, State.grantPass_link, ← state]
    exact ⟨rfl, fun d => (if_neg (by rw [state]; exact nofun)).symm⟩
  | low =>
    rw [State.supplyChanged_between (.inl state), ← state]
    exact ⟨rfl, fun d => (if_neg (by rw [state]; exact nofun)).symm⟩
  | high =>
    rw [State.supplyChanged_between (.inr state), ← state]
    exact ⟨rfl, fun d => (if_neg (by rw [state]; exact nofun)).symm⟩

/-- The notices wait: those of a change stand at the end of the step. -/
theorem State.supplySample_served (waits : s.noticesWait) (changed : (s.supply.sample mv).state ≠ s.supply.state) :
    (s.supplySample mv).serve.link.notices = (s.supplySample mv).link.notices := by
  obtain ⟨link, -⟩ := State.supplySample_notices sampled changed
  rw [State.serve_link]
  exact Link.serve_notices_of_wait s waits _ (by rw [link]) (by rw [link])

end

/-- The entry into NORMAL makes a grant pass (R62). -/
theorem State.supplySample_grants {s : State} {mv : Nat} (sampled : s.supply.hist ≠ []) (arbiter : s.ArbiterLaw)
    (enters : s.supply.state ≠ .normal) (normal : (s.supply.sample mv).state = .normal) :
    let n := min (s.device.slotCount - s.arbiter.holders.length) s.arbiter.queue.length
    let granted := (s.arbiter.queue.take n).map QueueEntry.chan
    let t := s.supplySample mv
    t.arbiter.queue = s.arbiter.queue.drop n ∧
    (∀ c, c ∈ t.arbiter.holders ↔ c ∈ s.arbiter.holders ∨ c ∈ granted) ∧
    (∀ c ∈ granted, ∃ m, (s.ch c).ms.motion = some m ∧ t.ch c = (s.ch c).enterStartup (s.supply.sample mv) m) ∧
    (∀ c, c ∉ granted → t.ch c = s.ch c) := by
  obtain ⟨holds, waits, nodup, classes, -⟩ := arbiter
  intro n granted t
  have passed : t = (s.sampled mv).postSupply.grantPass := by
    simp only [t]
    rw [State.supplySample_changed sampled (by rw [normal]; exact enters.symm), State.supplyChanged_normal normal]
  rw [passed]
  refine State.grantHeads_spec s.arbiter.queue.length (s.sampled mv).postSupply le_rfl normal nodup fun e mem => ⟨fun holder => ?_, ?_⟩
  · have queued := (waits e.chan).1 (List.mem_map_of_mem mem)
    have holding := (holds e.chan).1 holder
    rw [queued] at holding
    cases holding
  · have motion := congrArg Option.isSome (classes e mem)
    rw [Option.isSome_map] at motion
    exact motion

/-- Settles O59. -/
theorem supplySampleClassifiesAndCutsOff : Obligations.SupplySampleClassifiesAndCutsOff := by
  refine ⟨fun s mv sampled => ?_, fun s mv sampled enters cutoff => ⟨_, exec_supplySample mv s, ?_⟩,
    fun s mv sampled waits => ⟨_, exec_supplySample mv s, ?_⟩, fun s mv sampled slots arbiter => ⟨_, exec_supplySample mv s, ?_⟩⟩
  · intro hist u st
    refine ⟨_, exec_supplySample mv s, ?_⟩
    have supply := State.supplySample_supply (mv := mv) sampled
    obtain ⟨⟨device, lines, -, clock, effort⟩, -⟩ := State.supplySample_frame (mv := mv) sampled
    have isU : (s.supply.sample mv).u = u := filteredSupply_eq hist
    obtain ⟨isCutoff, isLow, isNormal, isHigh⟩ := classify_iff st u
    have state : (s.supply.sample mv).state = classify st u := (Supply.sample_state mv sampled).trans (by rw [isU])
    rw [State.serve_supply, State.serve_device, State.serve_lines, State.serve_effort, State.serve_clock, supply, state]
    refine ⟨rfl, isU, isCutoff, isLow, isNormal, isHigh, device, lines, effort, clock, fun kept => ?_⟩
    rw [State.supplySample_kept (state.trans kept)]
    exact ⟨rfl, rfl, rfl, State.sameLink_serve ⟨rfl, rfl, rfl, rfl, rfl, rfl, rfl, rfl, rfl⟩⟩
  · obtain ⟨chan, queue, holders, ⟨-, -, supply, -, -⟩, pool⟩ := State.supplySample_cutoff sampled enters cutoff
    refine ⟨?_, pool, ?_, fun c => ⟨fun apart => ?_, fun holds => ?_⟩⟩
    · rw [State.serve_supply, supply]
      exact cutoff
    · rw [State.serve_arbiter, queue]
      refine List.filter_congr fun e _ => ?_
      rw [decide_eq_true (mem_allChans e.chan), Bool.true_and]
      rfl
    · rw [State.ch_serve, chan c, if_pos (mem_allChans c)]
      exact Chan.cut_apart apart
    · obtain ⟨mode, applied, position, known, reversal, cells⟩ := Chan.cut_keeps holds
      rw [State.ch_serve, chan c, if_pos (mem_allChans c)]
      refine ⟨mode, applied, fun holder => ?_, position, known, reversal, cells, fun x toFault => Chan.cut_fault toFault,
        fun noFault => Chan.cut_idle holds noFault⟩
      exact ((holders c).1 holder).2 ⟨mem_allChans c, holds⟩
  · rw [State.serve_supply, State.supplySample_supply sampled]
    refine ⟨fun kept => ?_, fun changed => ?_⟩
    · rw [State.supplySample_kept kept, State.serve_link]
      exact Link.serve_notices_of_wait s waits (s.sampled mv).link rfl rfl
    · obtain ⟨link, ends⟩ := State.supplySample_notices sampled changed
      rw [State.supplySample_served sampled waits changed]
      refine ⟨by rw [link], by rw [link], by rw [link], fun c => ?_⟩
      intro k ended
      refine ⟨fun stays => ?_, fun cutoff => ?_⟩
      · rw [ends c]
        rcases stays with notCutoff | apart
        · exact if_neg notCutoff
        · rw [Chan.cutEnd_apart _ apart, ite_self]
      · simp only [ended]
        rw [ends c, if_pos cutoff]
        exact ⟨Chan.cutEnd_stopped _, fun r => Chan.cutEnd_idle _, fun x => Chan.cutEnd_fault _⟩
  · rw [State.serve_supply, State.supplySample_supply sampled]
    intro enters normal n granted
    obtain ⟨queue, holders, grants, stays⟩ := State.supplySample_grants sampled arbiter enters normal
    refine ⟨queue, holders, fun c mem => ?_, stays, (State.supplySample_frame sampled).2⟩
    obtain ⟨m, motion, entered⟩ := grants c mem
    rw [State.ch_serve, entered]
    exact ⟨rfl, motion.symm, rfl, m, motion, (s.ch c).beginsDrive_enterStartup _ m⟩

end Sys2Proof.Machine
end

section
/-! PROOFS. Stages 1 to 4 of an evaluation. -/

namespace Sys2Proof.Machine

section
variable {i : EvalInput} {x : Condition} {raised : List Condition} {pn : Option Nat} {go : List Condition → EvalOutcome}

theorem EvalInput.meet_masked (masked : i.masked x = true) : i.meet x raised pn go = go (raised ++ [x]) := if_pos masked

theorem EvalInput.meet_unmasked (unmasked : ¬i.masked x = true) : i.meet x raised pn go = ⟨raised ++ [x], pn, .stopped x⟩ :=
  if_neg unmasked

/-! ## The interval check and stage 1 (R71 to R73) -/

/-- The supply voltage an evaluation goes on with: held to its range (R73). -/
def EvalInput.heldSupply (i : EvalInput) : Nat := max 6000 (min i.u 18000)

/-- Whether the supply voltage lies outside the range of an evaluation (R73). -/
def EvalInput.OutOfRange (i : EvalInput) : Prop := i.u < 6000 ∨ 18000 < i.u

/-- What stage 1 has raised. -/
def EvalInput.Raised1 (i : EvalInput) (r : List Condition) : Prop :=
  (i.OutOfRange ∧ r = [.supplyRange]) ∨ (¬i.OutOfRange ∧ r = [])

/-- The interval check is passed. -/
def EvalInput.PassesInterval (i : EvalInput) : Prop := i.overflowed = false ∨ i.masked .periodOverflow = true

theorem EvalInput.run_stopped (stops : ¬i.PassesInterval) : i.run = ⟨[], none, .stopped .periodOverflow⟩ := by
  unfold EvalInput.PassesInterval at stops
  refine if_pos ?_
  cases overflowed : i.overflowed <;> cases masked : i.masked .periodOverflow <;> simp [overflowed, masked] at stops ⊢

theorem EvalInput.run_passes (passes : i.PassesInterval) : i.run = i.stage1 [] := by
  refine if_neg ?_
  rcases passes with h | h <;> simp [h]

theorem EvalInput.stage1_stopped (range : i.OutOfRange) (unmasked : ¬i.masked .supplyRange = true) :
    i.stage1 [] = ⟨[.supplyRange], none, .stopped .supplyRange⟩ := by
  unfold EvalInput.OutOfRange at range
  unfold EvalInput.stage1
  rw [if_neg (by omega), EvalInput.meet_unmasked unmasked]
  rfl

theorem EvalInput.stage1_passes {r : List Condition} (isRaised : i.Raised1 r) (passes : ¬i.OutOfRange ∨ i.masked .supplyRange = true) :
    i.stage1 [] = i.stage2 i.heldSupply r := by
  unfold EvalInput.stage1
  rcases isRaised with ⟨range, rfl⟩ | ⟨within, rfl⟩
  · have masked := passes.resolve_left (not_not.2 range)
    unfold EvalInput.OutOfRange at range
    rw [if_neg (by omega), EvalInput.meet_masked masked]
    rfl
  · unfold EvalInput.OutOfRange at within
    have held : i.heldSupply = i.u := by
      unfold EvalInput.heldSupply
      omega
    rw [if_pos (by omega), held]

/-! ## Stage 2 (R74) -/

section
variable {u : Nat}

theorem EvalInput.stage2_diverted (low : u * i.duty / 1024 < 3000) (masked : i.masked .lowDrive = true) :
    i.stage2 u raised = ⟨raised ++ [.lowDrive], none, .diverted⟩ :=
  (if_pos low).trans (EvalInput.meet_masked masked)

theorem EvalInput.stage2_stopped (low : u * i.duty / 1024 < 3000) (unmasked : ¬i.masked .lowDrive = true) :
    i.stage2 u raised = ⟨raised ++ [.lowDrive], none, .stopped .lowDrive⟩ :=
  (if_pos low).trans (EvalInput.meet_unmasked unmasked)

theorem EvalInput.stage2_passes (drives : 3000 ≤ u * i.duty / 1024) : i.stage2 u raised = i.stage3 (u * i.duty / 1024) raised :=
  if_neg (not_lt.2 drives)

end

/-! ## Stage 3 (R75, R76) -/

section
variable {ue : Nat}

theorem EvalInput.stage3_stopped (exceeds : 65535 < (i.period * ue + 6750) / 13500) (unmasked : ¬i.masked .periodOverflow = true) :
    i.stage3 ue raised = ⟨raised ++ [.periodOverflow], none, .stopped .periodOverflow⟩ :=
  (if_pos exceeds).trans (EvalInput.meet_unmasked unmasked)

theorem EvalInput.stage3_passes (passes : (i.period * ue + 6750) / 13500 ≤ 65535 ∨ i.masked .periodOverflow = true) :
    i.stage3 ue raised = i.stage4 (max 1 (min ((i.period * ue + 6750) / 13500) 65535))
      (if 65535 < (i.period * ue + 6750) / 13500 then raised ++ [.periodOverflow] else raised) := by
  by_cases exceeds : 65535 < (i.period * ue + 6750) / 13500
  · have masked := passes.resolve_left (not_le.2 exceeds)
    rw [if_pos exceeds, show max 1 (min ((i.period * ue + 6750) / 13500) 65535) = 65535 by omega]
    exact (if_pos exceeds).trans (EvalInput.meet_masked masked)
  · rw [if_neg exceeds, show min ((i.period * ue + 6750) / 13500) 65535 = (i.period * ue + 6750) / 13500 by omega]
    exact if_neg exceeds

end

/-! ## Stage 4 (R80 to R82) -/

section
variable {n : Nat}

theorem EvalInput.stage4_neutral (empty : i.cell.state = .empty) (masked : i.masked .noReference = true) :
    i.stage4 n raised = ⟨raised ++ [.noReference], some n, .complete 0 .neutral⟩ := by
  unfold EvalInput.stage4
  rw [empty]
  exact EvalInput.meet_masked masked

theorem EvalInput.stage4_stopped (empty : i.cell.state = .empty) (unmasked : ¬i.masked .noReference = true) :
    i.stage4 n raised = ⟨raised ++ [.noReference], some n, .stopped .noReference⟩ := by
  unfold EvalInput.stage4
  rw [empty]
  exact EvalInput.meet_unmasked unmasked

theorem EvalInput.stage4_valid (valid : i.cell.state = .valid) (low : -2048 ≤ rawExcess n i.cell.reference i.gain)
    (high : rawExcess n i.cell.reference i.gain ≤ 2047) :
    i.stage4 n raised = ⟨raised, some n, .complete (rawExcess n i.cell.reference i.gain) .valid⟩ := by
  unfold EvalInput.stage4
  rw [valid]
  exact if_pos ⟨low, high⟩

theorem EvalInput.stage4_saturated (valid : i.cell.state = .valid)
    (beyond : rawExcess n i.cell.reference i.gain < -2048 ∨ 2047 < rawExcess n i.cell.reference i.gain) :
    i.stage4 n raised = i.meet .effortSat raised (some n) (fun r => ⟨r, some n,
      .complete (max (-2048) (min 2047 (rawExcess n i.cell.reference i.gain))) .valid⟩) := by
  unfold EvalInput.stage4
  rw [valid]
  dsimp only
  rw [if_neg (by omega), clampInt, min_comm]

end

end

/-- The stages' equation for an evaluation that has passed the interval check, stage 1 and the drive's voltage. -/
theorem EvalInput.run_measured {i : EvalInput} {r : List Condition} (passes : i.PassesInterval) (isRaised : i.Raised1 r)
    (range : ¬i.OutOfRange ∨ i.masked .supplyRange = true) (drives : 3000 ≤ i.heldSupply * i.duty / 1024) :
    i.run = i.stage3 (i.heldSupply * i.duty / 1024) r := by
  rw [EvalInput.run_passes passes, EvalInput.stage1_passes isRaised range, EvalInput.stage2_passes drives]

/-- The outcome of stages 1 to 4, for every mask and every cell (R71 to R82). -/
theorem evalInput_run (i : EvalInput) :
    let masked := fun x : Condition => i.active.get x.mask = 1 ∨ (x = .noReference ∧ i.filling = true)
    let range := i.u < 6000 ∨ 18000 < i.u
    let ue := max 6000 (min i.u 18000) * i.duty / 1024
    let raw := (i.period * ue + 6750) / 13500
    let pn := max 1 (min raw 65535)
    let x := (((pn : Int) - i.cell.reference) * i.gain).tdiv 256
    let r1 := if range then [Condition.supplyRange] else []
    let r3 := if 65535 < raw then r1 ++ [Condition.periodOverflow] else r1
    let go0 := i.overflowed = false ∨ masked .periodOverflow
    let go1 := go0 ∧ (¬range ∨ masked .supplyRange)
    let go3 := go1 ∧ 3000 ≤ ue ∧ (raw ≤ 65535 ∨ masked .periodOverflow)
    (¬go0 → i.run = ⟨[], none, .stopped .periodOverflow⟩) ∧
    (go0 → range → ¬masked .supplyRange → i.run = ⟨[.supplyRange], none, .stopped .supplyRange⟩) ∧
    (go1 → ue < 3000 → masked .lowDrive → i.run = ⟨r1 ++ [.lowDrive], none, .diverted⟩) ∧
    (go1 → ue < 3000 → ¬masked .lowDrive → i.run = ⟨r1 ++ [.lowDrive], none, .stopped .lowDrive⟩) ∧
    (go1 → 3000 ≤ ue → 65535 < raw → ¬masked .periodOverflow →
      i.run = ⟨r1 ++ [.periodOverflow], none, .stopped .periodOverflow⟩) ∧
    (go3 → i.cell.state = .empty → masked .noReference →
      i.run = ⟨r3 ++ [.noReference], some pn, .complete 0 .neutral⟩) ∧
    (go3 → i.cell.state = .empty → ¬masked .noReference →
      i.run = ⟨r3 ++ [.noReference], some pn, .stopped .noReference⟩) ∧
    (go3 → i.cell.state = .valid → -2048 ≤ x → x ≤ 2047 → i.run = ⟨r3, some pn, .complete x .valid⟩) ∧
    (go3 → i.cell.state = .valid → x < -2048 ∨ 2047 < x → masked .effortSat →
      i.run = ⟨r3 ++ [.effortSat], some pn, .complete (max (-2048) (min 2047 x)) .valid⟩) ∧
    (go3 → i.cell.state = .valid → x < -2048 ∨ 2047 < x → ¬masked .effortSat →
      i.run = ⟨r3 ++ [.effortSat], some pn, .stopped .effortSat⟩) := by
  intro masked range ue raw pn x r1 r3 go0 go1 go3
  have mask (y : Condition) : masked y ↔ i.masked y = true := (i.masked_iff y).symm
  have passes (h : go0) : i.PassesInterval := h.imp_right (mask _).1
  have range1 (h : ¬range ∨ masked .supplyRange) : ¬i.OutOfRange ∨ i.masked .supplyRange = true := h.imp_right (mask _).1
  have isRaised : i.Raised1 r1 := by
    by_cases h : range
    · exact .inl ⟨h, if_pos h⟩
    · exact .inr ⟨h, if_neg h⟩
  have second (h : go1) : i.run = i.stage2 i.heldSupply r1 := by
    rw [EvalInput.run_passes (passes h.1), EvalInput.stage1_passes isRaised (range1 h.2)]
  have fourth (h : go3) : i.run = i.stage4 pn r3 := by
    obtain ⟨⟨first, inRange⟩, drives, held⟩ := h
    rw [EvalInput.run_measured (passes first) isRaised (range1 inRange) drives]
    exact EvalInput.stage3_passes (held.imp_right (mask _).1)
  refine ⟨fun h => EvalInput.run_stopped fun h' => h (h'.imp_right (mask _).2), fun h out unmasked => ?_,
    fun h low isMasked => ?_, fun h low unmasked => ?_, fun h drives exceeds unmasked => ?_, fun h empty isMasked => ?_,
    fun h empty unmasked => ?_, fun h valid low high => ?_, fun h valid beyond isMasked => ?_, fun h valid beyond unmasked => ?_⟩
  · rw [EvalInput.run_passes (passes h)]
    exact EvalInput.stage1_stopped out fun h' => unmasked ((mask _).2 h')
  · exact (second h).trans (EvalInput.stage2_diverted low ((mask _).1 isMasked))
  · exact (second h).trans (EvalInput.stage2_stopped low fun h' => unmasked ((mask _).2 h'))
  · rw [EvalInput.run_measured (passes h.1) isRaised (range1 h.2) drives]
    exact EvalInput.stage3_stopped exceeds fun h' => unmasked ((mask _).2 h')
  · exact (fourth h).trans (EvalInput.stage4_neutral empty ((mask _).1 isMasked))
  · exact (fourth h).trans (EvalInput.stage4_stopped empty fun h' => unmasked ((mask _).2 h'))
  · exact (fourth h).trans (EvalInput.stage4_valid valid low high)
  · exact (fourth h).trans ((EvalInput.stage4_saturated valid beyond).trans (EvalInput.meet_masked ((mask _).1 isMasked)))
  · exact (fourth h).trans ((EvalInput.stage4_saturated valid beyond).trans
      (EvalInput.meet_unmasked fun h' => unmasked ((mask _).2 h')))

end Sys2Proof.Machine
end

section
/-! PROOFS. One evaluation: the channel it leaves, by its ending and its verdict. -/

namespace Sys2Proof.Machine

theorem exec_evaluation (c : ChanId) (s : State) : exec (.evaluation c) s = .next (s.evaluation c).serve := rfl

/-! ## The cell, the outcome and the channel after stages 1 to 4 -/

/-- The cell of a request's position (R77). -/
def State.evalCell (s : State) (c : ChanId) (q : EvalRequest) : Fin 64 :=
  cellIndex ((s.ch c).ms.active.get .travelLength) q.position

/-- The outcome of stages 1 to 4 of an evaluation. -/
def State.evalOutcome (s : State) (c : ChanId) (q : EvalRequest) : EvalOutcome := (s.evalInput c q (s.evalCell c q)).run

/-- The outcome, its inputs written out (R70). -/
theorem State.evalOutcome_eq (s : State) (c : ChanId) (q : EvalRequest) :
    (⟨q.period, q.overflowed, s.supply.u, (s.ch c).out.applied, (s.ch c).ms.active.get .closingGain,
      decide ((s.ch c).ms.motion = some (.normalize .fill)), (s.ch c).ms.active, (s.ch c).rps.cells[s.evalCell c q]⟩ : EvalInput).run
      = s.evalOutcome c q := by
  rw [← Chan.filling_eq]
  rfl

/-- The channel after stages 1 to 4: the conditions noted, the measurement added. -/
def State.measured (s : State) (c : ChanId) (q : EvalRequest) : Chan :=
  ((s.ch c).noteConditions q.overflowed (s.evalOutcome c q).raised).addMeasurement (s.evalCell c q) (s.evalOutcome c q).pn

/-- An overflowed interval or a condition raised: the evaluation was not clean (R88, R92). -/
def State.unclean (s : State) (c : ChanId) (q : EvalRequest) : Bool := q.overflowed || !(s.evalOutcome c q).raised.isEmpty

theorem State.unclean_iff {s : State} {c : ChanId} {q : EvalRequest} :
    s.unclean c q = true ↔ q.overflowed = true ∨ (s.evalOutcome c q).raised ≠ [] := by
  rw [State.unclean, Bool.or_eq_true, Bool.not_eq_true', List.isEmpty_eq_false_iff]

/-- The flags of the conditions raised, and of those alone. -/
def State.stickyAfter (s : State) (c : ChanId) (q : EvalRequest) : ConditionFlags :=
  (s.evalOutcome c q).raised.foldl ConditionFlags.raise (s.ch c).ee.sticky

/-- The cells of a channel that stages 1 to 4 write, and those they keep. -/
structure State.IsMeasured (s : State) (c : ChanId) (q : EvalRequest) (u : Chan) : Prop where
  pd : u.pd = (s.ch c).pd
  out : u.out = (s.ch c).out
  ms : u.ms = { (s.ch c).ms with taint := (s.ch c).ms.taint || s.unclean c q }
  ee : u.ee = { (s.ch c).ee with sticky := s.stickyAfter c q, lastStep := s.unclean c q }
  rps : u.rps = { (s.ch c).rps with scratch := u.rps.scratch }
  scratch : ∀ i : Fin 64, u.rps.scratch[i] = if i = s.evalCell c q then match (s.evalOutcome c q).pn with
      | some pn => if (s.ch c).rps.scratch[s.evalCell c q].count < 4095 then
          ⟨(s.ch c).rps.scratch[s.evalCell c q].sum + pn, (s.ch c).rps.scratch[s.evalCell c q].count + 1⟩
        else (s.ch c).rps.scratch[s.evalCell c q]
      | none => (s.ch c).rps.scratch[s.evalCell c q]
    else (s.ch c).rps.scratch[i]

theorem State.isMeasured (s : State) (c : ChanId) (q : EvalRequest) : s.IsMeasured c q (s.measured c q) := by
  have noted := (s.ch c).noteConditions_eq q.overflowed (s.evalOutcome c q).raised
  have added := ((s.ch c).noteConditions q.overflowed (s.evalOutcome c q).raised).addMeasurement_eq (s.evalCell c q)
    (s.evalOutcome c q).pn
  have scratch := fun i => ((s.ch c).noteConditions q.overflowed (s.evalOutcome c q).raised).addMeasurement_scratch (s.evalCell c q) i
    (s.evalOutcome c q).pn
  refine ⟨?_, ?_, ?_, ?_, ?_, fun i => ?_⟩
  · rw [State.measured, added, noted]
  · rw [State.measured, added, noted]
  · rw [State.measured, added, noted]
    rfl
  · rw [State.measured, added, noted]
    rfl
  · rw [State.measured, added, noted]
  · have pair := scratch i
    have unmeasured : ((s.ch c).noteConditions q.overflowed (s.evalOutcome c q).raised).rps = (s.ch c).rps := by rw [noted]
    rw [unmeasured] at pair
    exact pair

/-! ## The request taken (R69) -/

/-- The part with a list of requests in the place of the one it had. -/
def State.requesting (s : State) (rs : List EvalRequest) : State := { s with effort := { s.effort with requests := rs } }

/-- A channel is evaluated: its oldest request, of the drive it is still in. -/
structure State.Evaluates (s : State) (c : ChanId) (q : EvalRequest) (before after : List EvalRequest) : Prop where
  requests : s.effort.requests = before ++ q :: after
  oldest : ∀ r ∈ before, r.chan ≠ c
  chan : q.chan = c
  drive : q.drive = (s.ch c).pd.drive
  state : (s.ch c).ms.state = .travel ∨ ((s.ch c).ms.state = .startup ∧ q.inTravel = false)

section
variable {s : State} {c : ChanId} {q : EvalRequest} {before after : List EvalRequest} (taken : s.Evaluates c q before after)
include taken

theorem State.Evaluates.driving : (s.ch c).ms.state.driving = true := by
  rcases taken.state with h | ⟨h, -⟩ <;> rw [h] <;> rfl

theorem State.evaluation_taken : s.evaluation c = (s.requesting (before ++ after)).evaluate c q := by
  obtain ⟨requests, oldest, chan, drive, state⟩ := taken
  exact s.evaluation_eq c q before after requests oldest chan drive state

/-- An ending at an unmasked condition is its condition stop. -/
theorem State.evaluation_stops {x : Condition} (stopped : (s.evalOutcome c q).ending = .stopped x) :
    s.evaluation c = (((s.requesting (before ++ after)).setCh c (s.measured c q)).takeRecord c (.condition x)
      (s.ch c).pd.position (s.ch c).pd.known).setCh c ((s.measured c q).enterDwell (.fault x)) := by
  obtain ⟨pd, -, ms, -⟩ := s.isMeasured c q
  have chan : ((s.requesting (before ++ after)).setCh c (s.measured c q)).ch c = s.measured c q := State.ch_setCh_self _ c _
  rw [State.evaluation_taken taken, ((s.requesting (before ++ after)).evaluate_eq c q (s.evalCell c q) (s.evalOutcome c q)
    (s.measured c q) rfl rfl rfl).1 x stopped, State.conditionStop_eq, State.takeRecordHere_eq, chan, pd]
  rw [chan, ms]
  exact taken.driving

/-- Any other ending is judged, and its verdict acted on. -/
theorem State.evaluation_judged (goesOn : ∀ x, (s.evalOutcome c q).ending ≠ .stopped x) {v : Verdict} {t : State}
    (judged : ((s.requesting (before ++ after)).setCh c (s.measured c q)).judge c q (s.evalCell c q) (s.evalOutcome c q).ending = (v, t)) :
    (v = .clear → s.evaluation c = t) ∧ (∀ cause, v = .pinch cause → s.evaluation c = t.pinch c cause q.position) := by
  have evaluated := ((s.requesting (before ++ after)).evaluate_eq c q (s.evalCell c q) (s.evalOutcome c q)
    (s.measured c q) rfl rfl rfl).2 goesOn
  rw [← State.evaluation_taken taken, judged] at evaluated
  refine ⟨fun isClear => ?_, fun cause isPinch => ?_⟩
  · rw [isClear] at evaluated
    exact evaluated
  · rw [isPinch] at evaluated
    exact evaluated

end

/-! ## Stages 5 and 6 (R83, R95 to R105) -/

/-- A channel after stages 5 and 6: window, history, lane and summary, and the taint of a rough road or a hold. -/
def Chan.evaluated (k : Chan) (e : Excess) (history : List Bool) (lane : Option Millis) (summary : Summary) (rough : Bool) : Chan :=
  { k with
    ee := { e with history := history, lane := lane, summary := summary }
    ms := { k.ms with taint := k.ms.taint || rough } }

/-- The summary of an evaluation that reached the window (R105). -/
def Excess.summaryOf (e : Excess) (sl : Slot) (cell : Fin 64) (teff : Option Nat) : Summary :=
  ⟨some (sl.value, sl.tag), some cell, e.average, teff⟩

/-- The hold of the threshold by common mode set. -/
def State.holding (s : State) (hold : Option Millis) : State := { s with effort := { s.effort with hold := hold } }

/-- An evaluation stamped STARTUP takes no decision; it writes the window in STARTUP alone (R83, R96). -/
theorem State.judge_startup {s : State} {c : ChanId} {q : EvalRequest} (cell : Fin 64) (ending : Ending) (stamped : q.inTravel = false) :
    s.judge c q cell ending = (.clear, s.setCh c ((s.ch c).evaluated
      (if (s.ch c).ms.state = .startup then (s.ch c).ee.writeSlot ending.slot else (s.ch c).ee) (s.ch c).ee.history (s.ch c).ee.lane
      (Excess.summaryOf (if (s.ch c).ms.state = .startup then (s.ch c).ee.writeSlot ending.slot else (s.ch c).ee) ending.slot cell none)
      (decide (3 ≤ s.effort.road)))) := by
  unfold State.judge
  dsimp only
  rw [stamped, if_neg Bool.false_ne_true, State.taintByRoad_eq]
  by_cases startup : (s.ch c).ms.state = .startup
  · rw [if_pos startup, if_pos startup]
    simp only [State.modCh_eq, State.ch_setCh_self, State.setCh_setCh, Bool.false_and, Bool.or_false]
    rfl
  · rw [if_neg startup, if_neg startup]
    simp only [State.modCh_eq, State.ch_setCh_self, State.setCh_setCh, Bool.false_and, Bool.or_false]
    rfl

/-- An evaluation stamped TRAVEL writes the window and hands it to stage 6 (R95, R98). -/
theorem State.judge_travel {s : State} {c : ChanId} {q : EvalRequest} {cell : Fin 64} {ending : Ending} {v : Verdict}
    {teff : Option Nat} {hold lane : Option Millis} {history : List Bool} (stamped : q.inTravel = true)
    (decided : (s.setCh c { s.ch c with ee := (s.ch c).ee.writeSlot ending.slot }).stage6 c q.position ending = (v, teff,
      (s.holding hold).setCh c { s.ch c with ee := { (s.ch c).ee.writeSlot ending.slot with history := history, lane := lane } })) :
    s.judge c q cell ending = (v, (s.holding hold).setCh c ((s.ch c).evaluated ((s.ch c).ee.writeSlot ending.slot) history lane
      (((s.ch c).ee.writeSlot ending.slot).summaryOf ending.slot cell teff) (decide (3 ≤ s.effort.road) || hold.isSome))) := by
  unfold State.judge
  dsimp only
  rw [if_pos stamped, State.modCh_eq, decided, State.taintByRoad_eq]
  simp only [State.modCh_eq, State.ch_setCh_self, State.setCh_setCh, Bool.true_and]
  rfl

/-! ## Stage 6 by zone, ending and window -/

section
variable {s : State} {c : ChanId} {p : Int}

theorem State.stage6_seal (ending : Ending) (inSeal : p < ((s.ch c).ms.active.get .zSeal : Int)) :
    s.stage6 c p ending = (.clear, none, s) := by
  unfold State.stage6
  exact if_pos ((zoneAt_eq_seal _ _).2 inSeal)

variable (outside : ¬p < ((s.ch c).ms.active.get .zSeal : Int))
include outside

theorem State.not_seal : ¬zoneAt (s.ch c).ms.active p = .seal := fun h => outside ((zoneAt_eq_seal _ _).1 h)

theorem State.stage6_diverted : s.stage6 c p .diverted =
    (.clear, if (s.ch c).ee.full = true then some (s.standingThreshold c (zoneAt (s.ch c).ms.active p)) else none, s) := by
  unfold State.stage6
  dsimp only
  rw [if_neg (State.not_seal outside), Excess.average]
  cases (s.ch c).ee.full <;> rfl

theorem State.stage6_hard {x : Int} (hard : ((s.ch c).ms.active.get .tHard : Int) < x) :
    s.stage6 c p (.complete x .valid) = (.pinch .pinchHard, some (s.standingThreshold c (zoneAt (s.ch c).ms.active p)), s) := by
  unfold State.stage6
  dsimp only
  rw [if_neg (State.not_seal outside), if_pos hard]

variable {x : Int} {tag : SlotTag} (soft : ¬(tag = .valid ∧ ((s.ch c).ms.active.get .tHard : Int) < x))
include soft

theorem State.stage6_unfilled (unfilled : (s.ch c).ee.average = none) : s.stage6 c p (.complete x tag) = (.clear, none, s) := by
  unfold State.stage6
  dsimp only
  rw [if_neg (State.not_seal outside), unfilled]
  cases tag with
  | valid => exact if_neg fun h => soft ⟨rfl, h⟩
  | neutral | empty => rfl

theorem State.stage6_decides {a : Int} (filled : (s.ch c).ee.average = some a) : s.stage6 c p (.complete x tag) =
    ((s.decide102 c (zoneAt (s.ch c).ms.active p) a).1, some (s.decide102 c (zoneAt (s.ch c).ms.active p) a).2.1,
      (s.decide102 c (zoneAt (s.ch c).ms.active p) a).2.2) := by
  unfold State.stage6
  dsimp only
  rw [if_neg (State.not_seal outside), filled]
  cases tag with
  | valid => exact if_neg fun h => soft ⟨rfl, h⟩
  | neutral | empty => rfl

end

end Sys2Proof.Machine
end

section
/-! PROOFS. One evaluation: the action on its verdict, and what it keeps of the part. -/

namespace Sys2Proof.Machine

/-! ## The part after an evaluation -/

/-- What an evaluation keeps of the part: all but its channel, the pool, the requests and the hold. -/
structure State.EvaluationFrame (s t : State) (c : ChanId) (rs : List EvalRequest) (hold : Option Millis) : Prop where
  others : s.SameOthers t c
  arbiter : t.arbiter = s.arbiter
  device : t.device = s.device
  lines : t.lines = s.lines
  supply : t.supply = s.supply
  clock : t.clock = s.clock
  link : s.SameLink t
  effort : t.effort = { s.effort with requests := rs, hold := hold }

/-- The part an evaluation acts on: its request taken, the hold as it leaves it. -/
def State.evaluating (s : State) (rs : List EvalRequest) (hold : Option Millis) : State := (s.requesting rs).holding hold

theorem State.EvaluationFrame.of_setCh (s : State) (c : ChanId) (rs : List EvalRequest) (hold : Option Millis) (u : Chan) :
    s.EvaluationFrame ((s.evaluating rs hold).setCh c u).serve c rs hold := by
  obtain ⟨arbiter, ⟨device, lines, supply, clock, effort⟩, link⟩ := (s.evaluating rs hold).sameShared_setCh c u
  exact ⟨fun d other => ((s.evaluating rs hold).sameOthers_setCh c u d other).trans rfl, arbiter, device, lines, supply, clock, link, effort⟩

theorem State.EvaluationFrame.of_record (s : State) (c : ChanId) (rs : List EvalRequest) (hold : Option Millis) (v u : Chan)
    (cause : IncidentCause) (p : Int) (known : Bool) :
    s.EvaluationFrame ((((s.evaluating rs hold).setCh c v).takeRecord c cause p known).setCh c u).serve c rs hold := by
  obtain ⟨-, -, others, arbiter, ⟨device, lines, supply, clock, effort⟩, link⟩ := (s.evaluating rs hold).recorded c v u cause p known
  exact ⟨others, arbiter, device, lines, supply, clock, link, effort⟩

/-! ## The action on the verdict (R84, R153, R155) -/

/-- The record of a pinch, or of the stop an override makes of it (R177). -/
def State.pinchRecord (s : State) (c : ChanId) (cause : IncidentCause) (p : Int) (known : Bool) (reversal : Nat) (hold : Option Millis)
    (u : Chan) : Incident :=
  ⟨c, cause, s.clock.ms, p, known, zoneAt u.ms.active p, reversal, s.supply.u, u.out.applied, s.effort.road, hold.isSome,
    if cause.hasEvidence then some ⟨u.ee.summary, u.ee.newestFirst, u.ee.history⟩ else none⟩

/-- A verdict acted on: `u` is the channel as stages 1 to 6 leave it, `p` the position of the count. -/
structure State.ActedOn (s t : State) (c : ChanId) (p : Int) (rs : List EvalRequest) (hold : Option Millis)
    (v : Verdict) (u : Chan) : Prop where
  frame : s.EvaluationFrame t c rs hold
  ee : (t.ch c).ee = u.ee
  taint : (t.ch c).ms.taint = u.ms.taint
  cells : (t.ch c).rps.cells = u.rps.cells
  position : (t.ch c).pd.position = u.pd.position
  known : (t.ch c).pd.known = u.pd.known
  clear_ : v = .clear → t.ch c = u ∧ t.pool = s.pool
  responds : ∀ cause, v = .pinch cause → u.ms.override = false → t.ch c = (u.pinched p).enterDwell .backoff ∧
    s.RecordTaken t (s.pinchRecord c cause p true (min 7 (u.ms.reversal + 1)) hold u)
  overridden : ∀ cause, v = .pinch cause → u.ms.override = true → t.ch c = u.enterDwell (.idle .overrideStop) ∧
    s.RecordTaken t (s.pinchRecord c .overrideStop u.pd.position u.pd.known u.ms.reversal hold u)

section
variable (s : State) (c : ChanId) (p : Int) (rs : List EvalRequest) (hold : Option Millis) (u : Chan)

theorem State.actedOn_clear : s.ActedOn ((s.evaluating rs hold).setCh c u).serve c p rs hold .clear u := by
  have frame := State.EvaluationFrame.of_setCh s c rs hold u
  have chan : ((s.evaluating rs hold).setCh c u).serve.ch c = u := State.ch_setCh_self _ c u
  exact ⟨frame, (congrArg Chan.ee chan).trans rfl, congrArg (fun k => k.ms.taint) chan, congrArg (fun k => k.rps.cells) chan,
    congrArg (fun k => k.pd.position) chan, congrArg (fun k => k.pd.known) chan, fun _ => ⟨chan, rfl⟩,
    fun cause isPinch => Verdict.noConfusion isPinch, fun cause isPinch => Verdict.noConfusion isPinch⟩

theorem State.fillRecord_setCh (b : State) (cause : IncidentCause) (known : Bool) (k : Chan) :
    (b.setCh c k).fillRecord c cause p known = b.pinchRecord c cause p known k.ms.reversal b.effort.hold k := by
  unfold State.fillRecord State.pinchRecord
  rw [State.ch_setCh_self]
  rfl

theorem State.actedOn_responds (cause : IncidentCause) (noOverride : u.ms.override = false) :
    s.ActedOn (((s.evaluating rs hold).setCh c u).pinch c cause p).serve c p rs hold (.pinch cause) u := by
  have before : ((s.evaluating rs hold).setCh c u).ch c = u := State.ch_setCh_self _ c u
  rw [State.pinch_responds cause p (by rw [before]; exact noOverride), before, State.setCh_setCh]
  have frame := State.EvaluationFrame.of_record s c rs hold (u.pinched p) ((u.pinched p).enterDwell .backoff) cause p true
  obtain ⟨chan, record, -⟩ := (s.evaluating rs hold).recorded c (u.pinched p) ((u.pinched p).enterDwell .backoff) cause p true
  rw [State.fillRecord_setCh] at record
  refine ⟨frame, (congrArg Chan.ee chan).trans rfl, congrArg (fun k => k.ms.taint) chan, congrArg (fun k => k.rps.cells) chan,
    congrArg (fun k => k.pd.position) chan, congrArg (fun k => k.pd.known) chan, fun isClear => Verdict.noConfusion isClear,
    fun other isPinch _ => ?_, fun other _ override => ?_⟩
  · obtain rfl : cause = other := by injection isPinch
    exact ⟨chan, record⟩
  · rw [noOverride] at override
    cases override

theorem State.actedOn_overridden (cause : IncidentCause) (override : u.ms.override = true) :
    s.ActedOn (((s.evaluating rs hold).setCh c u).pinch c cause p).serve c p rs hold (.pinch cause) u := by
  have before : ((s.evaluating rs hold).setCh c u).ch c = u := State.ch_setCh_self _ c u
  rw [State.pinch_overridden cause p (by rw [before]; exact override), before]
  have frame := State.EvaluationFrame.of_record s c rs hold u (u.enterDwell (.idle .overrideStop)) .overrideStop u.pd.position u.pd.known
  obtain ⟨chan, record, -⟩ :=
    (s.evaluating rs hold).recorded c u (u.enterDwell (.idle .overrideStop)) .overrideStop u.pd.position u.pd.known
  rw [State.fillRecord_setCh] at record
  refine ⟨frame, (congrArg Chan.ee chan).trans rfl, congrArg (fun k => k.ms.taint) chan, congrArg (fun k => k.rps.cells) chan,
    congrArg (fun k => k.pd.position) chan, congrArg (fun k => k.pd.known) chan, fun isClear => Verdict.noConfusion isClear,
    fun other _ noOverride => ?_, fun other _ _ => ⟨chan, record⟩⟩
  rw [noOverride] at override
  cases override

end

section
variable {s : State} {c : ChanId} {q : EvalRequest} {before after : List EvalRequest} (taken : s.Evaluates c q before after)
  (goesOn : ∀ x, (s.evalOutcome c q).ending ≠ .stopped x)
include taken goesOn

theorem State.evaluation_acts {v : Verdict} {hold : Option Millis} {u : Chan}
    (judged : ((s.requesting (before ++ after)).setCh c (s.measured c q)).judge c q (s.evalCell c q) (s.evalOutcome c q).ending =
      (v, (s.evaluating (before ++ after) hold).setCh c u)) :
    ∃ t, exec (.evaluation c) s = .next t ∧ s.ActedOn t c q.position (before ++ after) hold v u := by
  obtain ⟨isClear, isPinch⟩ := State.evaluation_judged taken goesOn judged
  refine ⟨_, exec_evaluation c s, ?_⟩
  cases v with
  | clear =>
    rw [isClear rfl]
    exact s.actedOn_clear c q.position (before ++ after) hold u
  | pinch cause =>
    rw [isPinch cause rfl]
    cases override : u.ms.override with
    | false => exact s.actedOn_responds c q.position (before ++ after) hold u cause override
    | true => exact s.actedOn_overridden c q.position (before ++ after) hold u cause override

/-! ## An evaluation stamped STARTUP -/

/-- The window after an evaluation stamped STARTUP: written in STARTUP alone (R96). -/
def State.startupWindow (s : State) (c : ChanId) (q : EvalRequest) : Excess :=
  if (s.ch c).ms.state = .startup then (s.measured c q).ee.writeSlot (s.evalOutcome c q).ending.slot else (s.measured c q).ee

theorem State.evaluation_startup (stamped : q.inTravel = false) :
    ∃ t, exec (.evaluation c) s = .next t ∧ s.ActedOn t c q.position (before ++ after) s.effort.hold .clear
      ((s.measured c q).evaluated (s.startupWindow c q) (s.measured c q).ee.history (s.measured c q).ee.lane
        ((s.startupWindow c q).summaryOf (s.evalOutcome c q).ending.slot (s.evalCell c q) none) (decide (3 ≤ s.effort.road))) := by
  refine State.evaluation_acts taken goesOn ((State.judge_startup _ _ stamped).trans ?_)
  obtain ⟨-, -, ms, -⟩ := s.isMeasured c q
  have state : (s.measured c q).ms.state = (s.ch c).ms.state := (congrArg Sequencer.state ms).trans rfl
  rw [State.ch_setCh_self, state, State.setCh_setCh]
  rfl

/-! ## An evaluation stamped TRAVEL -/

/-- The channel stage 6 judges: the slot of the evaluation written (R95). -/
def State.windowed (s : State) (c : ChanId) (q : EvalRequest) : Chan :=
  { s.measured c q with ee := (s.measured c q).ee.writeSlot (s.evalOutcome c q).ending.slot }

/-- The part stage 6 judges. -/
def State.deciding (s : State) (c : ChanId) (q : EvalRequest) (rs : List EvalRequest) : State :=
  (s.requesting rs).setCh c (s.windowed c q)

theorem State.evaluation_travel {v : Verdict} {teff : Option Nat} {hold lane : Option Millis} {history : List Bool}
    (stamped : q.inTravel = true)
    (decided : (s.deciding c q (before ++ after)).stage6 c q.position (s.evalOutcome c q).ending = (v, teff,
      ((s.deciding c q (before ++ after)).holding hold).setCh c
        { s.windowed c q with ee := { (s.windowed c q).ee with history := history, lane := lane } })) :
    ∃ t, exec (.evaluation c) s = .next t ∧ s.ActedOn t c q.position (before ++ after) hold v
      ((s.measured c q).evaluated (s.windowed c q).ee history lane
        ((s.windowed c q).ee.summaryOf (s.evalOutcome c q).ending.slot (s.evalCell c q) teff)
        (decide (3 ≤ s.effort.road) || hold.isSome)) := by
  have base : ((s.requesting (before ++ after)).setCh c (s.measured c q)).ch c = s.measured c q := State.ch_setCh_self _ c _
  refine State.evaluation_acts taken goesOn ((State.judge_travel (hold := hold) (lane := lane) (history := history) (v := v)
    (teff := teff) stamped ?_).trans ?_)
  · rw [base, State.setCh_setCh]
    refine decided.trans (congrArg (fun x => (v, teff, x)) ?_)
    exact (State.setCh_setCh ((s.requesting (before ++ after)).holding hold) c _ _).trans
      (State.setCh_setCh ((s.requesting (before ++ after)).holding hold) c _ _).symm
  · rw [base]
    exact congrArg (Prod.mk v) (State.setCh_setCh ((s.requesting (before ++ after)).holding hold) c _ _)

end

/-! ## The flags (R87, R88, R92, R108, R112) -/

/-- The flags of an evaluated channel: those of the conditions met, and the taint by those, the road and the hold. -/
theorem State.evaluated_flags {s : State} {c : ChanId} {q : EvalRequest} {u : Chan} {rough : Bool}
    (sticky : u.ee.sticky = (s.measured c q).ee.sticky) (lastStep : u.ee.lastStep = (s.measured c q).ee.lastStep)
    (taint : u.ms.taint = ((s.measured c q).ms.taint || rough)) :
    (∀ x : Condition, u.ee.sticky.get x = true ↔ (s.ch c).ee.sticky.get x = true ∨ x ∈ (s.evalOutcome c q).raised) ∧
    (u.ee.lastStep = true ↔ q.overflowed = true ∨ (s.evalOutcome c q).raised ≠ []) ∧
    (u.ms.taint = true ↔ (s.ch c).ms.taint = true ∨ (q.overflowed = true ∨ (s.evalOutcome c q).raised ≠ []) ∨ rough = true) := by
  obtain ⟨-, -, ms, ee, -⟩ := s.isMeasured c q
  rw [sticky, lastStep, taint, ee, ms]
  refine ⟨fun x => ConditionFlags.get_foldl_raise x _ _, State.unclean_iff, ?_⟩
  rw [Bool.or_eq_true, Bool.or_eq_true, State.unclean_iff, or_assoc]

end Sys2Proof.Machine
end

section
/-! PROOFS. Every evaluation: flags, window, scratch and stage 6. -/

namespace Sys2Proof.Machine

theorem cellIndex_val (l : Nat) (p : Int) : (cellIndex l p).val = min 63 ((max p 0).toNat / ((l + 63) / 64)) := by
  rw [show (max p 0).toNat = p.toNat by omega]
  rfl

theorem Ending.slot_eq {e : Ending} {sl : Slot} (h : (e = .diverted ∧ sl = ⟨0, .neutral⟩) ∨ e = .complete sl.value sl.tag) :
    e.slot = sl := by
  rcases h with ⟨diverted, neutral⟩ | complete
  · rw [diverted, neutral]
    rfl
  · rw [complete]
    rfl

theorem Ending.not_stopped_of_slot {e : Ending} {sl : Slot} (h : (e = .diverted ∧ sl = ⟨0, .neutral⟩) ∨ e = .complete sl.value sl.tag)
    (x : Condition) : e ≠ .stopped x := by
  rcases h with ⟨diverted, -⟩ | complete
  · rw [diverted]
    exact Ending.noConfusion
  · rw [complete]
    exact Ending.noConfusion

/-! ## The window (R83, R95 to R97) -/

/-- A slot written at the advanced pointer of a window. -/
def Excess.Writes (e e' : Excess) (sl : Slot) : Prop :=
  e'.top = e.top + 1 ∧ e'.slots[e.top + 1] = sl ∧ ∀ i : Fin 8, i ≠ e.top + 1 → e'.slots[i] = e.slots[i]

theorem Excess.writes_of_slots {e e' w : Excess} {sl : Slot} (h : e.Writes w sl) (top : e'.top = w.top) (slots : e'.slots = w.slots) :
    e.Writes e' sl := by
  obtain ⟨advanced, written, same⟩ := h
  exact ⟨top.trans advanced, by rw [slots]; exact written, fun i other => by rw [slots]; exact same i other⟩

theorem State.windowed_writes (s : State) (c : ChanId) (q : EvalRequest) :
    (s.ch c).ee.Writes (s.windowed c q).ee (s.evalOutcome c q).ending.slot := by
  obtain ⟨-, -, -, ee, -⟩ := s.isMeasured c q
  obtain ⟨top, written, same, -⟩ := (s.measured c q).ee.writeSlot_fields (s.evalOutcome c q).ending.slot
  change Excess.Writes _ ((s.measured c q).ee.writeSlot (s.evalOutcome c q).ending.slot) _
  rw [ee] at top written same ⊢
  exact ⟨top, written, same⟩

theorem State.startupWindow_fields (s : State) (c : ChanId) (q : EvalRequest) :
    (s.startupWindow c q).sticky = (s.measured c q).ee.sticky ∧ (s.startupWindow c q).lastStep = (s.measured c q).ee.lastStep := by
  unfold State.startupWindow
  split <;> exact ⟨rfl, rfl⟩

/-! ## Going on (R84) -/

/-- A channel that goes on after an evaluation: its scratch, flags and summary apart, it stands as before. -/
def State.EvaluationGoesOn (s t : State) (c : ChanId) (q : EvalRequest) (rs : List EvalRequest) : Prop :=
  let k := s.ch c
  let o := s.evalOutcome c q
  let cell := s.evalCell c q
  let e := (t.ch c).ee
  (t.ch c).ms = { k.ms with taint := (t.ch c).ms.taint } ∧ (t.ch c).pd = k.pd ∧
    (t.ch c).out = k.out ∧ (t.ch c).rps = { k.rps with scratch := (t.ch c).rps.scratch } ∧
    (∀ i : Fin 64, (t.ch c).rps.scratch[i] = if i = cell then match o.pn with
        | some pn => if k.rps.scratch[cell].count < 4095 then ⟨k.rps.scratch[cell].sum + pn, k.rps.scratch[cell].count + 1⟩
          else k.rps.scratch[cell]
        | none => k.rps.scratch[cell]
      else k.rps.scratch[i]) ∧
    e.history = k.ee.history ∧ e.lane = k.ee.lane ∧ t.effort = { s.effort with requests := rs } ∧ t.pool = s.pool ∧
    e.summary.x = some (o.ending.slot.value, o.ending.slot.tag) ∧ e.summary.k = some cell ∧ e.AverageIs e.summary.a

section
variable {s t : State} {c : ChanId} {q : EvalRequest} {rs : List EvalRequest} {hold : Option Millis} {v : Verdict} {w : Excess}
  {history : List Bool} {lane : Option Millis} {summary : Summary} {rough : Bool}

/-- No verdict moves the cells or the counter. -/
theorem State.ActedOn.kept (acted : s.ActedOn t c q.position rs hold v ((s.measured c q).evaluated w history lane summary rough)) :
    (t.ch c).rps.cells = (s.ch c).rps.cells ∧ (t.ch c).pd.position = (s.ch c).pd.position ∧ (t.ch c).pd.known = (s.ch c).pd.known := by
  obtain ⟨pd, -, -, -, rps, -⟩ := s.isMeasured c q
  exact ⟨acted.cells.trans ((congrArg Profile.cells rps).trans rfl), acted.position.trans (congrArg Decoder.position pd),
    acted.known.trans (congrArg Decoder.known pd)⟩

/-- With the verdict clear the channel goes on driving as before. -/
theorem State.ActedOn.drivesOn (acted : s.ActedOn t c q.position rs hold .clear ((s.measured c q).evaluated w history lane summary rough)) :
    (t.ch c).ms = { (s.ch c).ms with taint := (t.ch c).ms.taint } ∧ (t.ch c).pd = (s.ch c).pd ∧ (t.ch c).out = (s.ch c).out ∧
      t.pool = s.pool := by
  obtain ⟨chan, pool⟩ := acted.clear_ rfl
  obtain ⟨pd, out, ms, -⟩ := s.isMeasured c q
  rw [chan]
  refine ⟨?_, pd, out, pool⟩
  change ({ (s.measured c q).ms with taint := (s.measured c q).ms.taint || rough } : Sequencer) =
    { (s.ch c).ms with taint := (s.measured c q).ms.taint || rough }
  rw [ms]

end

theorem State.ActedOn.goesOn {s t : State} {c : ChanId} {q : EvalRequest} {rs : List EvalRequest} {w : Excess} {teff : Option Nat}
    {rough : Bool} (acted : s.ActedOn t c q.position rs s.effort.hold .clear ((s.measured c q).evaluated w (s.measured c q).ee.history
      (s.measured c q).ee.lane (w.summaryOf (s.evalOutcome c q).ending.slot (s.evalCell c q) teff) rough)) :
    s.EvaluationGoesOn t c q rs := by
  obtain ⟨ms, pd, out, pool⟩ := acted.drivesOn
  obtain ⟨chan, -⟩ := acted.clear_ rfl
  obtain ⟨-, -, -, ee, rps, scratch⟩ := s.isMeasured c q
  refine ⟨ms, pd, out, ?_, ?_, ?_, ?_, acted.frame.effort, pool, ?_, ?_, ?_⟩
  · rw [chan]
    exact rps
  · rw [chan]
    exact scratch
  · rw [acted.ee]
    exact (congrArg Excess.history ee).trans rfl
  · rw [acted.ee]
    exact (congrArg Excess.lane ee).trans rfl
  · rw [acted.ee]
    rfl
  · rw [acted.ee]
    rfl
  · rw [acted.ee]
    exact w.averageIs

/-! ## Stage 6 (R98 to R104) -/

/-- A position in the seal zone of the active set (R98). -/
def State.Sealed (s : State) (c : ChanId) (q : EvalRequest) : Prop := q.position < ((s.ch c).ms.active.get .zSeal : Int)

/-- An evaluation above the hard limit (R99). -/
def State.AboveHard (s : State) (c : ChanId) (q : EvalRequest) : Prop :=
  (s.evalOutcome c q).ending.slot.tag = .valid ∧ ((s.ch c).ms.active.get .tHard : Int) < (s.evalOutcome c q).ending.slot.value

/-- The threshold of the terms as they stand (R99, R100). -/
def State.standingTerms (s : State) (c : ChanId) (q : EvalRequest) : Nat :=
  let k := s.ch c
  let ps := k.ms.active
  min 2047 ((if q.position < (ps.get .zPinch : Int) then ps.get .tPinch else ps.get .tUpper) +
    s.effort.road * ps.get .tRoad + (if k.ms.override = true then ps.get .tOvr else 0) +
    (if s.effort.hold.isSome = true then ps.get .tCm else 0))

section
variable (s : State) (c : ChanId) (q : EvalRequest) (rs : List EvalRequest)

theorem State.ch_deciding : (s.deciding c q rs).ch c = s.windowed c q := State.ch_setCh_self _ c _

theorem State.windowed_ms : (s.windowed c q).ms = { (s.ch c).ms with taint := (s.ch c).ms.taint || s.unclean c q } :=
  (s.isMeasured c q).ms

theorem State.windowed_active : (s.windowed c q).ms.active = (s.ch c).ms.active :=
  (congrArg Sequencer.active (s.windowed_ms c q)).trans rfl

theorem State.deciding_active : ((s.deciding c q rs).ch c).ms.active = (s.ch c).ms.active := by
  rw [s.ch_deciding c q rs, s.windowed_active c q]

/-- Stage 6 that changes nothing, in the form every stage 6 has. -/
theorem State.deciding_self (hold : Option Millis) (isHold : hold = s.effort.hold) :
    s.deciding c q rs = ((s.deciding c q rs).holding hold).setCh c
      { s.windowed c q with ee := { (s.windowed c q).ee with history := (s.windowed c q).ee.history, lane := (s.windowed c q).ee.lane } } := by
  subst isHold
  exact (State.setCh_setCh (s.requesting rs) c (s.windowed c q) (s.windowed c q)).symm

theorem State.deciding_standing (clear_ : ¬s.Sealed c q) :
    (s.deciding c q rs).standingThreshold c (zoneAt ((s.deciding c q rs).ch c).ms.active q.position) = s.standingTerms c q := by
  have outside : zoneAt ((s.deciding c q rs).ch c).ms.active q.position ≠ .seal := by
    rw [s.deciding_active c q rs, Ne, zoneAt_eq_seal]
    exact clear_
  have override : (s.windowed c q).ms.override = (s.ch c).ms.override :=
    (congrArg Sequencer.override (s.windowed_ms c q)).trans rfl
  rw [State.standing_eq _ c _ outside, s.ch_deciding c q rs, s.windowed_active c q, override]
  rfl

end

section
variable {s : State} {c : ChanId} {q : EvalRequest} (rs : List EvalRequest)

/-- The form of every result of stage 6. -/
def State.Decides (s : State) (c : ChanId) (q : EvalRequest) (rs : List EvalRequest) (v : Verdict) (teff : Option Nat)
    (hold lane : Option Millis) (history : List Bool) : Prop :=
  (s.deciding c q rs).stage6 c q.position (s.evalOutcome c q).ending = (v, teff, ((s.deciding c q rs).holding hold).setCh c
    { s.windowed c q with ee := { (s.windowed c q).ee with history := history, lane := lane } })

/-- A result of stage 6 that leaves hold, history and lane. -/
def State.DecidesStill (s : State) (c : ChanId) (q : EvalRequest) (rs : List EvalRequest) (v : Verdict) (teff : Option Nat) : Prop :=
  s.Decides c q rs v teff s.effort.hold (s.measured c q).ee.lane (s.measured c q).ee.history

theorem State.decidesStill_of {v : Verdict} {teff : Option Nat}
    (decided : (s.deciding c q rs).stage6 c q.position (s.evalOutcome c q).ending = (v, teff, s.deciding c q rs)) :
    s.DecidesStill c q rs v teff :=
  decided.trans (congrArg (fun x => (v, teff, x)) (s.deciding_self c q rs s.effort.hold rfl))

theorem State.decides_any : ∃ v teff hold lane history, s.Decides c q rs v teff hold lane history := by
  obtain ⟨hold, history, lane, frame⟩ := (s.deciding c q rs).stage6_frame c q.position (s.evalOutcome c q).ending
  rw [s.ch_deciding c q rs] at frame
  exact ⟨_, _, hold, lane, history, Prod.ext rfl (Prod.ext rfl frame)⟩

theorem State.decides_seal (isSealed : s.Sealed c q) : s.DecidesStill c q rs .clear none :=
  State.decidesStill_of rs (State.stage6_seal _ (by rw [s.deciding_active c q rs]; exact isSealed))

variable (outside : ¬s.Sealed c q)
include outside

theorem State.deciding_outside : ¬q.position < (((s.deciding c q rs).ch c).ms.active.get .zSeal : Int) := by
  rw [s.deciding_active c q rs]
  exact outside

theorem State.decides_diverted (diverted : (s.evalOutcome c q).ending = .diverted) :
    s.DecidesStill c q rs .clear (if (s.windowed c q).ee.full = true then some (s.standingTerms c q) else none) := by
  refine State.decidesStill_of rs ?_
  rw [diverted, State.stage6_diverted (s.deciding_outside rs outside), s.deciding_standing c q rs outside, s.ch_deciding c q rs]

theorem State.decides_hard {x : Int} (ending : (s.evalOutcome c q).ending = .complete x .valid)
    (hard : ((s.ch c).ms.active.get .tHard : Int) < x) :
    s.DecidesStill c q rs (.pinch .pinchHard) (some (s.standingTerms c q)) := by
  refine State.decidesStill_of rs ?_
  rw [ending, State.stage6_hard (s.deciding_outside rs outside) (by rw [s.deciding_active c q rs]; exact hard),
    s.deciding_standing c q rs outside]

variable {x : Int} {tag : SlotTag} (ending : (s.evalOutcome c q).ending = .complete x tag)
  (soft : ¬(tag = .valid ∧ ((s.ch c).ms.active.get .tHard : Int) < x))
include ending soft

theorem State.decides_unfilled (unfilled : ¬(s.windowed c q).ee.Full) : s.DecidesStill c q rs .clear none := by
  refine State.decidesStill_of rs ?_
  rw [ending, State.stage6_unfilled (s.deciding_outside rs outside) (by rw [s.deciding_active c q rs]; exact soft)]
  rw [s.ch_deciding c q rs]
  exact (s.windowed c q).ee.averageIs.2 unfilled

end

/-- Stage 6 without a decision: in the seal zone, diverted, or with an unfilled window below the hard limit. -/
theorem State.decides_still {s : State} {c : ChanId} {q : EvalRequest} (rs : List EvalRequest)
    (goesOn : ∀ x, (s.evalOutcome c q).ending ≠ .stopped x)
    (still : s.Sealed c q ∨ (s.evalOutcome c q).ending = .diverted ∨ (¬(s.windowed c q).ee.Full ∧ ¬s.AboveHard c q)) :
    ∃ teff, s.DecidesStill c q rs .clear teff ∧ (s.Sealed c q ∨ ¬(s.windowed c q).ee.Full → teff = none) ∧
      (¬s.Sealed c q → (s.windowed c q).ee.Full → teff = some (s.standingTerms c q)) := by
  by_cases isSealed : s.Sealed c q
  · exact ⟨none, State.decides_seal rs isSealed, fun _ => rfl, fun outside => absurd isSealed outside⟩
  · have filled := (s.windowed c q).ee.full_iff
    match ending : (s.evalOutcome c q).ending with
    | .stopped x => exact absurd ending (goesOn x)
    | .diverted =>
      refine ⟨_, State.decides_diverted rs isSealed ending, fun unfilled => ?_, fun _ full => if_pos (filled.2 full)⟩
      exact if_neg fun full => (unfilled.resolve_left isSealed) (filled.1 full)
    | .complete x tag =>
      have isSlot : (s.evalOutcome c q).ending.slot = ⟨x, tag⟩ := by rw [ending]; rfl
      rw [ending, State.AboveHard, isSlot] at still
      obtain ⟨unfilled, soft⟩ := (still.resolve_left isSealed).resolve_left Ending.noConfusion
      exact ⟨none, State.decides_unfilled rs isSealed ending soft unfilled, fun _ => rfl, fun _ full => absurd full unfilled⟩

end Sys2Proof.Machine
end

section
/-! PROOFS. Every evaluation, assembled: stopped, stamped STARTUP, stamped TRAVEL. -/

namespace Sys2Proof.Machine

/-- The flags an evaluation leaves (R87, R88, R92, R108, R112). -/
def State.EvaluationFlags (s t : State) (c : ChanId) (q : EvalRequest) : Prop :=
  (∀ x : Condition, (t.ch c).ee.sticky.get x = true ↔ (s.ch c).ee.sticky.get x = true ∨ x ∈ (s.evalOutcome c q).raised) ∧
  ((t.ch c).ee.lastStep = true ↔ q.overflowed = true ∨ (s.evalOutcome c q).raised ≠ []) ∧
  ((t.ch c).ms.taint = true ↔ (s.ch c).ms.taint = true ∨ (q.overflowed = true ∨ (s.evalOutcome c q).raised ≠ []) ∨
    ((∀ x, (s.evalOutcome c q).ending ≠ .stopped x) ∧ (3 ≤ s.effort.road ∨ (q.inTravel = true ∧ t.effort.hold.isSome = true))))

/-- What an evaluation stopped at a condition leaves (R84, R152). -/
def State.EvaluationStops (s t : State) (c : ChanId) (rs : List EvalRequest) (x : Condition) : Prop :=
  let k := s.ch c
  (t.ch c).DwellsToward (.fault x) ∧
    (t.ch c).ee = { k.ee with sticky := (t.ch c).ee.sticky, lastStep := (t.ch c).ee.lastStep } ∧
    (t.ch c).ms.reversal = k.ms.reversal ∧ (t.ch c).ms.override = k.ms.override ∧
    (t.ch c).ms.marker = k.ms.marker ∧ (t.ch c).pd.position = k.pd.position ∧ (t.ch c).pd.known = k.pd.known ∧
    (t.ch c).pd.travel = k.pd.travel ∧ (t.ch c).rps.cells = k.rps.cells ∧ (t.ch c).rps.summary = k.rps.summary ∧
    t.effort = { s.effort with requests := rs } ∧ s.RecordTaken t (s.conditionRecord c x k.pd.position k.pd.known)

/-- What an evaluation that reaches the window leaves, by its stamp, its state and stage 6. -/
def State.EvaluationReaches (s t : State) (c : ChanId) (q : EvalRequest) (rs : List EvalRequest) : Prop :=
  let k := s.ch c
  let o := s.evalOutcome c q
  let e := (t.ch c).ee
  (q.inTravel = false → s.EvaluationGoesOn t c q rs ∧ e.summary.teff = none ∧
    (k.ms.state = .startup → k.ee.Writes e o.ending.slot) ∧ (k.ms.state = .travel → e.top = k.ee.top ∧ e.slots = k.ee.slots)) ∧
  (q.inTravel = true → k.ee.Writes e o.ending.slot) ∧
  (q.inTravel = true → s.Sealed c q ∨ o.ending = .diverted ∨ (¬e.Full ∧ ¬s.AboveHard c q) → s.EvaluationGoesOn t c q rs ∧
    (s.Sealed c q ∨ ¬e.Full → e.summary.teff = none) ∧ (¬s.Sealed c q → e.Full → e.summary.teff = some (s.standingTerms c q)))

section
variable {s : State} {c : ChanId} {q : EvalRequest} {before after : List EvalRequest} (taken : s.Evaluates c q before after)
include taken

/-! ## Stopped -/

theorem State.evaluation_stopped {x : Condition} (stopped : (s.evalOutcome c q).ending = .stopped x) :
    ∃ t, exec (.evaluation c) s = .next t ∧ s.EvaluationStops t c (before ++ after) x ∧ s.EvaluationFlags t c q ∧
      s.EvaluationFrame t c (before ++ after) s.effort.hold := by
  have run : s.evaluation c = (((s.evaluating (before ++ after) s.effort.hold).setCh c (s.measured c q)).takeRecord c (.condition x)
      (s.ch c).pd.position (s.ch c).pd.known).setCh c ((s.measured c q).enterDwell (.fault x)) :=
    State.evaluation_stops taken stopped
  obtain ⟨pd, out, ms, ee, rps, -⟩ := s.isMeasured c q
  have frame := State.EvaluationFrame.of_record s c (before ++ after) s.effort.hold (s.measured c q)
    ((s.measured c q).enterDwell (.fault x)) (.condition x) (s.ch c).pd.position (s.ch c).pd.known
  obtain ⟨chan, record, -⟩ := (s.evaluating (before ++ after) s.effort.hold).recorded c (s.measured c q)
    ((s.measured c q).enterDwell (.fault x)) (.condition x) (s.ch c).pd.position (s.ch c).pd.known
  refine ⟨_, (exec_evaluation c s).trans (by rw [run]), ?_, ?_, frame⟩
  · unfold State.EvaluationStops
    dsimp only
    rw [chan]
    refine ⟨Chan.dwellsToward_enterDwell _ _, ?_, ?_, ?_, ?_, ?_, ?_, ?_, ?_, ?_, frame.effort, ?_⟩
    · change (s.measured c q).ee = { (s.ch c).ee with sticky := (s.measured c q).ee.sticky, lastStep := (s.measured c q).ee.lastStep }
      rw [ee]
    · exact (congrArg Sequencer.reversal ms).trans rfl
    · exact (congrArg Sequencer.override ms).trans rfl
    · exact (congrArg Sequencer.marker ms).trans rfl
    · exact (congrArg Decoder.position pd).trans rfl
    · exact (congrArg Decoder.known pd).trans rfl
    · exact (congrArg Decoder.travel pd).trans rfl
    · exact (congrArg Profile.cells rps).trans rfl
    · exact (congrArg Profile.summary rps).trans rfl
    · rw [State.fillRecord_setCh, State.pinchRecord, ms, out] at record
      exact record
  · have kept : ((s.measured c q).enterDwell (.fault x)).ms.taint = ((s.measured c q).ms.taint || false) := (Bool.or_false _).symm
    obtain ⟨sticky, lastStep, taint⟩ := State.evaluated_flags (u := (s.measured c q).enterDwell (.fault x)) rfl rfl kept
    unfold State.EvaluationFlags
    rw [chan]
    refine ⟨sticky, lastStep, taint.trans ?_⟩
    simp [stopped]

/-! ## Not stopped -/

variable (goesOn : ∀ x, (s.evalOutcome c q).ending ≠ .stopped x)
include goesOn

omit taken in
theorem State.ActedOn.flags {t : State} {rs : List EvalRequest} {hold : Option Millis} {v : Verdict} {u : Chan}
    (acted : s.ActedOn t c q.position rs hold v u) (sticky : u.ee.sticky = (s.measured c q).ee.sticky)
    (lastStep : u.ee.lastStep = (s.measured c q).ee.lastStep)
    (taint : u.ms.taint = ((s.measured c q).ms.taint || (decide (3 ≤ s.effort.road) || (q.inTravel && hold.isSome)))) :
    s.EvaluationFlags t c q := by
  obtain ⟨stickyIs, lastStepIs, taintIs⟩ := State.evaluated_flags (u := t.ch c)
    ((congrArg Excess.sticky acted.ee).trans sticky) ((congrArg Excess.lastStep acted.ee).trans lastStep) (acted.taint.trans taint)
  have isHold : t.effort.hold = hold := (congrArg Effort.hold acted.frame.effort).trans rfl
  refine ⟨stickyIs, lastStepIs, taintIs.trans ?_⟩
  rw [isHold, Bool.or_eq_true, Bool.and_eq_true, decide_eq_true_eq]
  exact or_congr_right (or_congr_right (and_iff_right goesOn).symm)

theorem State.evaluation_reaches_startup (stamped : q.inTravel = false) :
    ∃ t, exec (.evaluation c) s = .next t ∧ s.EvaluationReaches t c q (before ++ after) ∧ s.EvaluationFlags t c q ∧
      s.EvaluationFrame t c (before ++ after) s.effort.hold := by
  obtain ⟨t, run, acted⟩ := State.evaluation_startup taken goesOn stamped
  obtain ⟨sticky, lastStep⟩ := s.startupWindow_fields c q
  have ee := acted.ee
  refine ⟨t, run, ⟨fun _ => ⟨acted.goesOn, by rw [ee]; rfl, fun startup => ?_, fun travel => ?_⟩,
    fun travel => ?_, fun travel => ?_⟩, State.ActedOn.flags goesOn acted sticky lastStep ?_, acted.frame⟩
  · have window : s.startupWindow c q = (s.windowed c q).ee := if_pos startup
    exact Excess.writes_of_slots (s.windowed_writes c q) (by rw [ee, ← window]; rfl) (by rw [ee, ← window]; rfl)
  · have window : s.startupWindow c q = (s.measured c q).ee := if_neg (by rw [travel]; decide)
    rw [ee]
    change (s.startupWindow c q).top = (s.ch c).ee.top ∧ (s.startupWindow c q).slots = (s.ch c).ee.slots
    rw [window, (s.isMeasured c q).ee]
    exact ⟨rfl, rfl⟩
  · rw [stamped] at travel
    cases travel
  · rw [stamped] at travel
    cases travel
  · rw [stamped, Bool.false_and, Bool.or_false]
    rfl

/-- The window, the flags and the rest of the part after an evaluation stamped TRAVEL, whatever stage 6 decides. -/
theorem State.evaluation_decided {v : Verdict} {teff : Option Nat} {hold lane : Option Millis} {history : List Bool}
    (stamped : q.inTravel = true) (decided : s.Decides c q (before ++ after) v teff hold lane history) :
    ∃ t, exec (.evaluation c) s = .next t ∧ (s.ch c).ee.Writes (t.ch c).ee (s.evalOutcome c q).ending.slot ∧
      s.EvaluationFlags t c q ∧ s.ActedOn t c q.position (before ++ after) hold v
        ((s.measured c q).evaluated (s.windowed c q).ee history lane
          ((s.windowed c q).ee.summaryOf (s.evalOutcome c q).ending.slot (s.evalCell c q) teff)
          (decide (3 ≤ s.effort.road) || hold.isSome)) := by
  obtain ⟨t, run, acted⟩ := State.evaluation_travel taken goesOn stamped decided
  have ee := acted.ee
  refine ⟨t, run, ?_, State.ActedOn.flags goesOn acted rfl rfl ?_, acted⟩
  · exact Excess.writes_of_slots (s.windowed_writes c q) (by rw [ee]; rfl) (by rw [ee]; rfl)
  · rw [stamped, Bool.true_and]
    rfl

theorem State.evaluation_reaches_travel (stamped : q.inTravel = true) :
    ∃ t hold, exec (.evaluation c) s = .next t ∧ s.EvaluationReaches t c q (before ++ after) ∧ s.EvaluationFlags t c q ∧
      s.EvaluationFrame t c (before ++ after) hold := by
  by_cases still : s.Sealed c q ∨ (s.evalOutcome c q).ending = .diverted ∨ (¬(s.windowed c q).ee.Full ∧ ¬s.AboveHard c q)
  · obtain ⟨teff, decided, unjudged, standing⟩ := State.decides_still (before ++ after) goesOn still
    obtain ⟨t, run, writes, flags, acted⟩ := State.evaluation_decided taken goesOn stamped decided
    refine ⟨t, _, run, ⟨fun startup => ?_, fun _ => writes, fun _ _ => ⟨acted.goesOn, ?_⟩⟩, flags, acted.frame⟩
    · rw [stamped] at startup
      cases startup
    · rw [acted.ee]
      exact ⟨unjudged, standing⟩
  · obtain ⟨v, teff, hold, lane, history, decided⟩ := State.decides_any (s := s) (c := c) (q := q) (before ++ after)
    obtain ⟨t, run, writes, flags, acted⟩ := State.evaluation_decided taken goesOn stamped decided
    refine ⟨t, hold, run, ⟨fun startup => ?_, fun _ => writes, fun _ stays => ?_⟩, flags, acted.frame⟩
    · rw [stamped] at startup
      cases startup
    · rw [acted.ee] at stays
      exact absurd stays still

theorem State.evaluation_reaches :
    ∃ t hold, exec (.evaluation c) s = .next t ∧ s.EvaluationReaches t c q (before ++ after) ∧ s.EvaluationFlags t c q ∧
      s.EvaluationFrame t c (before ++ after) hold := by
  cases stamped : q.inTravel with
  | false =>
    obtain ⟨t, run, reaches⟩ := State.evaluation_reaches_startup taken goesOn stamped
    exact ⟨t, _, run, reaches⟩
  | true => exact State.evaluation_reaches_travel taken goesOn stamped

end

/-- Settles O53. -/
theorem evaluationStagesComputeTheExcess : Obligations.EvaluationStagesComputeTheExcess := by
  refine ⟨evalInput_run, ?_⟩
  intro s c q before after requests oldest chan drive state k ps cell o unclean pair rest standing
  have taken : s.Evaluates c q before after := ⟨requests, oldest, chan, drive, state⟩
  have isOutcome : o = s.evalOutcome c q := s.evalOutcome_eq c q
  have isCell : cell.val = _ := cellIndex_val (ps.get .travelLength) q.position
  clear_value o
  subst isOutcome
  by_cases stops : ∃ x, (s.evalOutcome c q).ending = .stopped x
  · obtain ⟨x, stopped⟩ := stops
    obtain ⟨t, run, stop, ⟨sticky, lastStep, taint⟩, ⟨others, arbiter, device, lines, supply, clock, link, -⟩⟩ :=
      State.evaluation_stopped taken stopped
    refine ⟨t, run, isCell, sticky, lastStep, taint, fun y isStop => ?_, fun sl ends => ?_, others, arbiter, device, lines, supply,
      clock, link⟩
    · obtain rfl : x = y := by
        rw [stopped] at isStop
        injection isStop
      exact stop
    · exact absurd stopped (Ending.not_stopped_of_slot ends x)
  · have goesOn : ∀ x, (s.evalOutcome c q).ending ≠ .stopped x := fun x stopped => stops ⟨x, stopped⟩
    obtain ⟨t, hold, run, reaches, ⟨sticky, lastStep, taint⟩, ⟨others, arbiter, device, lines, supply, clock, link, -⟩⟩ :=
      State.evaluation_reaches taken goesOn
    refine ⟨t, run, isCell, sticky, lastStep, taint, fun y isStop => absurd isStop (goesOn y), fun sl ends => ?_, others, arbiter,
      device, lines, supply, clock, link⟩
    have isSlot := Ending.slot_eq ends
    subst isSlot
    exact reaches

end Sys2Proof.Machine
end

section
/-! PROOFS. The evaluation dropped, and the clean evaluation in the seal zone. -/

namespace Sys2Proof.Machine

/-! ## The request of a drive the channel has left (R69) -/

theorem Chan.stillIn_eq_false {k : Chan} {q : EvalRequest}
    (left : (k.ms.state ≠ .startup ∧ k.ms.state ≠ .travel) ∨ q.drive ≠ k.pd.drive) : k.stillIn q = false := by
  unfold Chan.stillIn
  rcases left with ⟨notStartup, notTravel⟩ | other
  · simp [notStartup, notTravel]
  · simp [other.symm]

theorem State.evaluation_dropped {s : State} {c : ChanId} {q : EvalRequest} {before after : List EvalRequest}
    (requests : s.effort.requests = before ++ q :: after) (first : ∀ r ∈ before, r.chan ≠ c) (chan : q.chan = c)
    (left : ((s.ch c).ms.state ≠ .startup ∧ (s.ch c).ms.state ≠ .travel) ∨ q.drive ≠ (s.ch c).pd.drive) :
    s.evaluation c = s.requesting (before ++ after) := by
  obtain ⟨oldest, dropped⟩ := oldestRequest_eq (after := after) first chan
  unfold State.evaluation
  rw [requests, oldest, dropped]
  dsimp only
  rw [Chan.stillIn_eq_false left, if_neg Bool.false_ne_true]
  rfl

/-! ## The clean evaluation (R70 to R82) -/

/-- The effective drive voltage of an evaluation in supply range (R74). -/
def State.cleanVoltage (s : State) (c : ChanId) : Nat := s.supply.u * (s.ch c).out.applied / 1024

/-- The normalized period of an evaluation that held nothing (R75). -/
def State.cleanPeriod (s : State) (c : ChanId) (q : EvalRequest) : Nat := (q.period * s.cleanVoltage c + 6750) / 13500

/-- The excess of an evaluation that held nothing (R81). -/
def State.cleanExcess (s : State) (c : ChanId) (q : EvalRequest) : Int :=
  (((s.cleanPeriod c q : Int) - (s.ch c).rps.cells[s.evalCell c q].reference) * (s.ch c).ms.active.get .closingGain).tdiv 256

/-- An evaluation in which no stage meets a condition. -/
structure State.Clean (s : State) (c : ChanId) (q : EvalRequest) : Prop where
  overflowed : q.overflowed = false
  range : 6000 ≤ s.supply.u ∧ s.supply.u ≤ 18000
  drives : 3000 ≤ s.cleanVoltage c
  period : 1 ≤ s.cleanPeriod c q ∧ s.cleanPeriod c q ≤ 65535
  valid : (s.ch c).rps.cells[s.evalCell c q].state = .valid
  excess : -2048 ≤ s.cleanExcess c q ∧ s.cleanExcess c q ≤ 2047

theorem State.Clean.outcome {s : State} {c : ChanId} {q : EvalRequest} (clean : s.Clean c q) :
    s.evalOutcome c q = ⟨[], some (s.cleanPeriod c q), .complete (s.cleanExcess c q) .valid⟩ := by
  obtain ⟨overflowed, ⟨above, below⟩, drives, ⟨positive, fits⟩, valid, ⟨low, high⟩⟩ := clean
  have within : ¬(s.evalInput c q (s.evalCell c q)).OutOfRange := fun out => by
    rcases out with out | out
    · exact absurd above (not_le.2 out)
    · exact absurd below (not_le.2 out)
  have held : (s.evalInput c q (s.evalCell c q)).heldSupply = s.supply.u := by
    change max 6000 (min s.supply.u 18000) = s.supply.u
    omega
  have voltage : (s.evalInput c q (s.evalCell c q)).heldSupply * (s.evalInput c q (s.evalCell c q)).duty / 1024 = s.cleanVoltage c := by
    rw [held]
    rfl
  have unheld : max 1 (min (s.cleanPeriod c q) 65535) = s.cleanPeriod c q := by omega
  have third : (s.evalInput c q (s.evalCell c q)).stage3 (s.cleanVoltage c) [] = (s.evalInput c q (s.evalCell c q)).stage4
      (max 1 (min (s.cleanPeriod c q) 65535)) (if 65535 < s.cleanPeriod c q then [.periodOverflow] else []) :=
    EvalInput.stage3_passes (.inl fits)
  have fourth := EvalInput.stage4_valid (i := s.evalInput c q (s.evalCell c q)) (n := s.cleanPeriod c q) (raised := []) valid low high
  rw [State.evalOutcome, EvalInput.run_measured (.inl overflowed) (.inr ⟨within, rfl⟩) (.inl within) (by rw [voltage]; exact drives),
    voltage, third, unheld, if_neg (not_lt.2 fits), fourth]
  rfl

theorem State.Clean.not_unclean {s : State} {c : ChanId} {q : EvalRequest} (clean : s.Clean c q) : s.unclean c q = false := by
  rw [State.unclean, clean.outcome, clean.overflowed]
  rfl

theorem State.Clean.not_stopped {s : State} {c : ChanId} {q : EvalRequest} (clean : s.Clean c q) (x : Condition) :
    (s.evalOutcome c q).ending ≠ .stopped x := by
  rw [clean.outcome]
  exact Ending.noConfusion

/-! A clean evaluation raises no flag and taints nothing (R87, R88, R92). -/

theorem State.Clean.sticky {s : State} {c : ChanId} {q : EvalRequest} (clean : s.Clean c q) :
    (s.measured c q).ee.sticky = (s.ch c).ee.sticky := by
  rw [(s.isMeasured c q).ee]
  change s.stickyAfter c q = _
  rw [State.stickyAfter, clean.outcome]
  rfl

theorem State.Clean.lastStep {s : State} {c : ChanId} {q : EvalRequest} (clean : s.Clean c q) :
    (s.measured c q).ee.lastStep = false := by
  rw [(s.isMeasured c q).ee]
  exact clean.not_unclean

theorem State.Clean.taint {s : State} {c : ChanId} {q : EvalRequest} (clean : s.Clean c q) :
    (s.measured c q).ms.taint = (s.ch c).ms.taint := by
  rw [(s.isMeasured c q).ms]
  change ((s.ch c).ms.taint || s.unclean c q) = _
  rw [clean.not_unclean, Bool.or_false]

/-- Settles O54. -/
theorem sealZoneEvaluationWritesTheWindow : Obligations.SealZoneEvaluationWritesTheWindow := by
  refine ⟨fun s c q before after requests oldest chan left => ?_, ?_⟩
  · rw [exec_evaluation, State.evaluation_dropped requests oldest chan left]
    rfl
  · intro s c q rest requests chan drive travel stamped overflowed inSeal k cell ue pn x above below drives positive fits valid low high room
    have taken : s.Evaluates c q [] rest := ⟨requests, fun r mem => absurd mem List.not_mem_nil, chan, drive, .inl travel⟩
    have clean : s.Clean c q := ⟨overflowed, ⟨above, below⟩, drives, ⟨positive, fits⟩, valid, ⟨low, high⟩⟩
    have outcome := clean.outcome
    obtain ⟨t, run, writes, -, acted⟩ :=
      State.evaluation_decided taken clean.not_stopped stamped (State.decides_seal rest inSeal)
    obtain ⟨ms, pd, out, rps, scratch, history, lane, effort, pool, isX, isCell, -⟩ := acted.goesOn
    obtain ⟨others, arbiter, -, -, -, -, link, -⟩ := acted.frame
    have ee := acted.ee
    rw [outcome] at writes isX
    obtain ⟨top, written, same⟩ := writes
    have state : (t.ch c).ms.state = .travel := (congrArg Sequencer.state ms).trans travel
    have motion : (t.ch c).ms.motion = k.ms.motion := (congrArg Sequencer.motion ms).trans rfl
    have sticky : (t.ch c).ee.sticky = k.ee.sticky := (congrArg Excess.sticky ee).trans clean.sticky
    have lastStep : (t.ch c).ee.lastStep = false := (congrArg Excess.lastStep ee).trans clean.lastStep
    have taint : (t.ch c).ms.taint = (k.ms.taint || decide (3 ≤ s.effort.road) || s.effort.hold.isSome) := by
      rw [acted.taint]
      change ((s.measured c q).ms.taint || (decide (3 ≤ s.effort.road) || s.effort.hold.isSome)) = _
      rw [clean.taint, Bool.or_assoc]
    refine ⟨t, run, effort, top, written, same, history, sticky, lastStep, lane, isX, isCell, by rw [ee]; rfl, ?_, fun i other => ?_,
      (congrArg Profile.cells rps).trans rfl, taint, state, motion, pd, out, others, arbiter, pool, link⟩
    · refine (scratch cell).trans ((if_pos (show cell = s.evalCell c q from rfl)).trans ?_)
      rw [outcome]
      exact if_pos room
    · exact (scratch i).trans (if_neg other)

end Sys2Proof.Machine
end

section
/-! PROOFS. Pinches of an evaluation: their records, and the hard limit. -/

namespace Sys2Proof.Machine

/-! ## The window newest first -/

/-- A slot of a window after the write of an evaluation (R95). -/
def Excess.slotAfter (e : Excess) (sl : Slot) (i : Fin 8) : Slot := if i = e.top + 1 then sl else e.slots[i]

/-- The window after the write of an evaluation, newest first. -/
def Excess.newestAfter (e : Excess) (sl : Slot) : List Slot := (List.finRange 8).map (fun i => e.slotAfter sl (e.top + 1 - i))

theorem Excess.Writes.slot {e e' : Excess} {sl : Slot} (h : e.Writes e' sl) (i : Fin 8) : e'.slots[i] = e.slotAfter sl i := by
  obtain ⟨-, written, same⟩ := h
  unfold Excess.slotAfter
  split
  · rename_i isTop
    subst isTop
    exact written
  · rename_i other
    exact same i other

theorem Excess.Writes.newestFirst {e e' : Excess} {sl : Slot} (h : e.Writes e' sl) : e'.newestFirst = e.newestAfter sl := by
  obtain ⟨top, -, -⟩ := id h
  rw [Excess.newestFirst_eq]
  exact List.map_congr_left fun i _ => (h.slot (e'.top - i)).trans (congrArg (fun j => e.slotAfter sl (j - i)) top)

/-! ## The zone of a position outside the seal zone -/

/-- The zone of a position outside the seal zone (R98). -/
def openZone (ps : ParamSet) (p : Int) : Zone := if p < (ps.get .zPinch : Int) then .pinch else .upper

theorem zoneAt_open {ps : ParamSet} {p : Int} (outside : ¬p < (ps.get .zSeal : Int)) : zoneAt ps p = openZone ps p := if_neg outside

theorem openZone_terms (ps : ParamSet) (p : Int) : (if openZone ps p = .upper then ps.get .tUpper else ps.get .tPinch) =
    if p < (ps.get .zPinch : Int) then ps.get .tPinch else ps.get .tUpper := by
  unfold openZone
  by_cases below : p < (ps.get .zPinch : Int)
  · rw [if_pos below, if_pos below, if_neg Zone.noConfusion]
  · rw [if_neg below, if_neg below, if_pos rfl]

/-! ## The pinch acted on (R84, R153, R155, R177) -/

section
variable {s t : State} {c : ChanId} {q : EvalRequest} {rs : List EvalRequest} {hold : Option Millis} {cause : IncidentCause}
  {sl : Slot} {w : Excess} {history : List Bool} {lane : Option Millis} {summary : Summary} {rough : Bool}
  (acted : s.ActedOn t c q.position rs hold (.pinch cause) ((s.measured c q).evaluated w history lane summary rough))
  (writes : (s.ch c).ee.Writes w sl)
include acted writes

/-- The back-off from the position of the count, with its record. -/
theorem State.ActedOn.backsOff (outside : ¬s.Sealed c q) (evidence : cause.hasEvidence = true) (noOverride : (s.ch c).ms.override = false) :
    (t.ch c).DwellsToward .backoff ∧ (t.ch c).ms.reversal = min 7 ((s.ch c).ms.reversal + 1) ∧
      ((t.ch c).ms.override = true ↔ (s.ch c).ms.active.get .reversalLimit ≤ min 7 ((s.ch c).ms.reversal + 1)) ∧
      (t.ch c).ms.marker = true ∧
      (t.ch c).ms.backoff = some ⟨min ((s.ch c).ms.active.get .travelLength : Int)
        (q.position + (s.ch c).ms.active.get .backoffDistance), none⟩ ∧
      s.RecordTaken t ⟨c, cause, s.clock.ms, q.position, true, openZone (s.ch c).ms.active q.position,
        min 7 ((s.ch c).ms.reversal + 1), s.supply.u, (s.ch c).out.applied, s.effort.road, hold.isSome,
        some ⟨summary, (s.ch c).ee.newestAfter sl, history⟩⟩ := by
  obtain ⟨-, out, ms, -⟩ := s.isMeasured c q
  obtain ⟨chan, record⟩ := acted.responds cause rfl (((congrArg Sequencer.override ms).trans rfl).trans noOverride)
  refine ⟨?_, ?_, ?_, ?_, ?_, ?_⟩
  · rw [chan]
    exact Chan.dwellsToward_enterDwell _ _
  · rw [chan]
    change min 7 ((s.measured c q).ms.reversal + 1) = _
    rw [ms]
  · rw [chan]
    change ((s.measured c q).ms.override || decide ((s.measured c q).ms.active.get .reversalLimit ≤
      min 7 ((s.measured c q).ms.reversal + 1))) = true ↔ _
    rw [ms]
    change ((s.ch c).ms.override || decide ((s.ch c).ms.active.get .reversalLimit ≤ min 7 ((s.ch c).ms.reversal + 1))) = true ↔ _
    rw [noOverride, Bool.false_or, decide_eq_true_eq]
  · rw [chan]
    rfl
  · rw [chan]
    change some (BackoffRecord.mk (min ((s.measured c q).ms.active.get .travelLength : Int)
      (q.position + (s.measured c q).ms.active.get .backoffDistance)) none) = _
    rw [ms]
  · unfold State.pinchRecord at record
    rw [if_pos evidence] at record
    change s.RecordTaken t ⟨c, cause, s.clock.ms, q.position, true, zoneAt (s.measured c q).ms.active q.position,
      min 7 ((s.measured c q).ms.reversal + 1), s.supply.u, (s.measured c q).out.applied, s.effort.road, hold.isSome,
      some ⟨summary, w.newestFirst, history⟩⟩ at record
    rw [ms, out, writes.newestFirst] at record
    change s.RecordTaken t ⟨c, cause, s.clock.ms, q.position, true, zoneAt (s.ch c).ms.active q.position, _, _, _, _, _, _⟩ at record
    rw [zoneAt_open outside] at record
    exact record

/-- The stop of an overridden pinch, with its record. -/
theorem State.ActedOn.overrides (override : (s.ch c).ms.override = true) :
    (t.ch c).DwellsToward (.idle .overrideStop) ∧ (t.ch c).ms.reversal = (s.ch c).ms.reversal ∧ (t.ch c).ms.override = true ∧
      (t.ch c).ms.marker = (s.ch c).ms.marker ∧
      s.RecordTaken t ⟨c, .overrideStop, s.clock.ms, (s.ch c).pd.position, (s.ch c).pd.known,
        zoneAt (s.ch c).ms.active (s.ch c).pd.position, (s.ch c).ms.reversal, s.supply.u, (s.ch c).out.applied, s.effort.road,
        hold.isSome, some ⟨summary, (s.ch c).ee.newestAfter sl, history⟩⟩ := by
  obtain ⟨pd, out, ms, -⟩ := s.isMeasured c q
  have overridden : (s.measured c q).ms.override = true := ((congrArg Sequencer.override ms).trans rfl).trans override
  obtain ⟨chan, record⟩ := acted.overridden cause rfl overridden
  refine ⟨?_, ?_, ?_, ?_, ?_⟩
  · rw [chan]
    exact Chan.dwellsToward_enterDwell _ _
  · rw [chan]
    exact (congrArg Sequencer.reversal ms).trans rfl
  · rw [chan]
    exact overridden
  · rw [chan]
    exact (congrArg Sequencer.marker ms).trans rfl
  · change s.RecordTaken t ⟨c, .overrideStop, s.clock.ms, (s.measured c q).pd.position, (s.measured c q).pd.known,
      zoneAt (s.measured c q).ms.active (s.measured c q).pd.position, (s.measured c q).ms.reversal, s.supply.u,
      (s.measured c q).out.applied, s.effort.road, hold.isSome, some ⟨summary, w.newestFirst, history⟩⟩ at record
    rw [ms, pd, out, writes.newestFirst] at record
    exact record

end

/-! ## The hard limit (R99) -/

theorem State.standingTerms_eq (s : State) (c : ChanId) (q : EvalRequest) : s.standingTerms c q =
    min 2047 ((if openZone (s.ch c).ms.active q.position = .upper then (s.ch c).ms.active.get .tUpper
        else (s.ch c).ms.active.get .tPinch) + s.effort.road * (s.ch c).ms.active.get .tRoad +
      (if (s.ch c).ms.override = true then (s.ch c).ms.active.get .tOvr else 0) +
      (if s.effort.hold.isSome = true then (s.ch c).ms.active.get .tCm else 0)) := by
  rw [openZone_terms]
  rfl

theorem Ending.slot_complete {o : EvalOutcome} {x : Int} {tag : SlotTag} (ending : o.ending = .complete x tag) : o.ending.slot = ⟨x, tag⟩ := by
  rw [ending]
  rfl

/-- The summary of a complete evaluation. -/
def State.summaryAfter (s : State) (c : ChanId) (q : EvalRequest) (x : Int) (tag : SlotTag) (teff : Option Nat) : Summary :=
  ⟨some (x, tag), some (s.evalCell c q), (s.windowed c q).ee.average, teff⟩

section
variable {s : State} {c : ChanId} {q : EvalRequest} {before after : List EvalRequest} (taken : s.Evaluates c q before after)
  {x : Int} {tag : SlotTag} (ending : (s.evalOutcome c q).ending = .complete x tag)
include taken ending

/-- A complete evaluation stamped TRAVEL, its window and summary written out. -/
theorem State.evaluation_complete {v : Verdict} {teff : Option Nat} {hold lane : Option Millis} {history : List Bool}
    (stamped : q.inTravel = true) (decided : s.Decides c q (before ++ after) v teff hold lane history) :
    ∃ t, exec (.evaluation c) s = .next t ∧ (s.ch c).ee.Writes (s.windowed c q).ee ⟨x, tag⟩ ∧ (s.ch c).ee.Writes (t.ch c).ee ⟨x, tag⟩ ∧
      s.EvaluationFlags t c q ∧ s.ActedOn t c q.position (before ++ after) hold v
        ((s.measured c q).evaluated (s.windowed c q).ee history lane (s.summaryAfter c q x tag teff)
          (decide (3 ≤ s.effort.road) || hold.isSome)) := by
  have goesOn : ∀ y, (s.evalOutcome c q).ending ≠ .stopped y := fun y => by
    rw [ending]
    exact Ending.noConfusion
  have isSlot := Ending.slot_complete ending
  have windowed := s.windowed_writes c q
  obtain ⟨t, run, writes, flags, acted⟩ := State.evaluation_decided taken goesOn stamped decided
  rw [isSlot] at windowed writes acted
  exact ⟨t, run, windowed, writes, flags, acted⟩

end

section
variable {s : State} {c : ChanId} {q : EvalRequest} {before after : List EvalRequest} (taken : s.Evaluates c q before after)
  {x : Int} (ending : (s.evalOutcome c q).ending = .complete x .valid) (stamped : q.inTravel = true)
  (outside : ¬s.Sealed c q) (hard : ((s.ch c).ms.active.get .tHard : Int) < x)
include taken ending stamped outside hard

/-- An evaluation above the hard limit is acted on as PINCH_HARD. -/
theorem State.evaluation_hard :
    ∃ t, exec (.evaluation c) s = .next t ∧ (s.ch c).ee.Writes (s.windowed c q).ee ⟨x, .valid⟩ ∧
      (s.ch c).ee.Writes (t.ch c).ee ⟨x, .valid⟩ ∧ s.EvaluationFlags t c q ∧
      s.ActedOn t c q.position (before ++ after) s.effort.hold (.pinch .pinchHard)
        ((s.measured c q).evaluated (s.windowed c q).ee (s.ch c).ee.history (s.ch c).ee.lane
          (s.summaryAfter c q x .valid (some (s.standingTerms c q))) (decide (3 ≤ s.effort.road) || s.effort.hold.isSome)) := by
  have decided := State.decides_hard (before ++ after) outside ending hard
  have history : (s.measured c q).ee.history = (s.ch c).ee.history := (congrArg Excess.history (s.isMeasured c q).ee).trans rfl
  have lane : (s.measured c q).ee.lane = (s.ch c).ee.lane := (congrArg Excess.lane (s.isMeasured c q).ee).trans rfl
  rw [State.DecidesStill, history, lane] at decided
  exact State.evaluation_complete taken ending stamped decided

end

/-- Settles O55. -/
theorem hardLimitPinchesAtOneCount : Obligations.HardLimitPinchesAtOneCount := by
  refine ⟨?_, ?_⟩
  · intro s c q rest requests chan drive travel stamped overflowed above k cell ue pn x supplied limited drives positive fits valid hard
      high noOverride
    have taken : s.Evaluates c q [] rest := ⟨requests, fun r mem => absurd mem List.not_mem_nil, chan, drive, .inl travel⟩
    have low : -2048 ≤ x := by omega
    have clean : s.Clean c q := ⟨overflowed, ⟨supplied, limited⟩, drives, ⟨positive, fits⟩, valid, ⟨low, high⟩⟩
    have ending : (s.evalOutcome c q).ending = .complete x .valid := by
      rw [clean.outcome]
      rfl
    obtain ⟨t, run, writes, -, -, acted⟩ := State.evaluation_hard taken ending stamped (not_lt.2 above) hard
    obtain ⟨dwells, reversal, -, marker, backoff, record, -⟩ := State.ActedOn.backsOff acted writes (not_lt.2 above) rfl noOverride
    obtain ⟨others, arbiter, -⟩ := acted.frame
    refine ⟨t, run, dwells, marker, reversal, backoff, ?_, ?_, ?_, ?_, fun r l free => ?_, others, arbiter⟩
    · rw [acted.ee]
      rfl
    · rw [acted.ee]
      rfl
    · rw [acted.ee]
      rfl
    · rw [acted.ee]
      rfl
    · obtain ⟨-, -, -, isRecord, -⟩ := record r l free
      rw [isRecord]
      exact ⟨rfl, rfl⟩
  · intro s c q before after x requests first chan drive travel stamped k ps cell o isComplete above hard slot newest zone teff n
    have taken : s.Evaluates c q before after := ⟨requests, first, chan, drive, .inl travel⟩
    have isOutcome : o = s.evalOutcome c q := s.evalOutcome_eq c q
    clear_value o
    subst isOutcome
    have standing : s.standingTerms c q = teff := s.standingTerms_eq c q
    obtain ⟨t, run, writes, written, ⟨sticky, lastStep, -⟩, acted⟩ :=
      State.evaluation_hard taken isComplete stamped (not_lt.2 above) hard
    rw [standing] at acted
    obtain ⟨others, arbiter, device, lines, supply, clock, link, effort⟩ := acted.frame
    obtain ⟨cells, position, known⟩ := acted.kept
    obtain ⟨top, -, -⟩ := id written
    have ee := acted.ee
    have summary : (t.ch c).ee.summary = s.summaryAfter c q x .valid (some teff) := by
      rw [ee]
      rfl
    refine ⟨t, (s.windowed c q).ee.average, run, top, written.slot, ?_, summary, ?_, ?_, effort, sticky, lastStep, cells, position, known,
      fun noOverride => ?_, fun override => ?_, others, arbiter, device, lines, supply, clock, link⟩
    · rw [ee]
      exact (s.windowed c q).ee.averageIs
    · rw [ee]
      rfl
    · rw [ee]
      rfl
    · rw [summary]
      exact State.ActedOn.backsOff acted writes (not_lt.2 above) rfl noOverride
    · rw [summary]
      exact State.ActedOn.overrides acted writes override

end Sys2Proof.Machine
end

section
/-! PROOFS. The decision of a full window. -/

namespace Sys2Proof.Machine

/-! ## The terms of the decision (R101 to R104, R107) -/

section
variable (s : State) (c : ChanId) (z : Zone) (a : Int)

/-- The terms of the threshold but common mode. -/
def State.unheldTerms : Nat :=
  (if z = .upper then (s.ch c).ms.active.get .tUpper else (s.ch c).ms.active.get .tPinch) +
    s.effort.road * (s.ch c).ms.active.get .tRoad + (if (s.ch c).ms.override = true then (s.ch c).ms.active.get .tOvr else 0)

/-- The lane check: A above T_eff0 (R102). -/
def State.marksLane : Bool := decide ((min 2047 (s.unheldTerms c z) : Nat) < a)

/-- The number of other channels whose lane counts. -/
def State.youngLanes : Nat :=
  (allChans.filter (fun d => decide (d ≠ c ∧ (s.ch d).ms.state = .travel ∧
    ∃ mark, (s.ch d).ee.lane = some mark ∧ (s.clock.ms - mark).toNat < s.device.cmWindow))).length

/-- The hold after the lane check. -/
def State.holdAfter : Option Millis :=
  if s.marksLane c z a = true ∧ 2 ≤ s.youngLanes c then some (s.clock.ms + BitVec.ofNat 32 s.device.holdTime) else s.effort.hold

/-- The channel's lane after the lane check. -/
def State.laneAfter : Option Millis := if s.marksLane c z a = true then some s.clock.ms else (s.ch c).ee.lane

/-- T_eff with the hold as the lane check leaves it. -/
def State.decidedTerms : Nat :=
  min 2047 (s.unheldTerms c z + (if (s.holdAfter c z a).isSome = true then (s.ch c).ms.active.get .tCm else 0))

/-- The history with the decision's entry. -/
def State.historyAfter : List Bool := (decide ((s.decidedTerms c z a : Int) < a) :: (s.ch c).ee.history).take 8

/-- The entries of 1 among the newest K (R104). -/
def State.effortEntries : Nat :=
  (((s.historyAfter c z a).take ((s.ch c).ms.active.get .persistenceDepth)).filter (fun b => b)).length

/-- The verdict by the persistence rule (R104). -/
def State.effortVerdict : Verdict :=
  if (s.ch c).ms.active.get .persistenceCount ≤ s.effortEntries c z a then .pinch .pinchEffort else .clear

theorem zoneThreshold_eq (ps : ParamSet) : zoneThreshold ps z = if z = .upper then ps.get .tUpper else ps.get .tPinch := by
  cases z <;> rfl

theorem State.laneCounts_eq : s.laneCounts c = fun d => decide (d ≠ c ∧ (s.ch d).ms.state = .travel ∧
    ∃ mark, (s.ch d).ee.lane = some mark ∧ (s.clock.ms - mark).toNat < s.device.cmWindow) := by
  funext d
  rw [Bool.eq_iff_iff, decide_eq_true_eq, State.laneCounts, Bool.and_eq_true, Bool.and_eq_true, Option.any_eq_true, and_assoc]
  simp only [bne_iff_ne, beq_iff_eq, youngMark, decide_eq_true_eq, ne_eq]

theorem State.decide102_terms : s.decide102 c z a = (s.effortVerdict c z a, s.decidedTerms c z a,
    (s.holding (s.holdAfter c z a)).setCh c
      { s.ch c with ee := { (s.ch c).ee with history := s.historyAfter c z a, lane := s.laneAfter c z a } }) := by
  have written := s.decide102_eq c z a
  dsimp only at written
  rw [zoneThreshold_eq, State.laneCounts_eq] at written
  exact written

end

/-! ## The terms of the part stage 6 judges -/

section
variable (s : State) (c : ChanId) (q : EvalRequest) (rs : List EvalRequest) (z : Zone) (a : Int)

theorem State.deciding_override : ((s.deciding c q rs).ch c).ms.override = (s.ch c).ms.override := by
  rw [s.ch_deciding c q rs, s.windowed_ms c q]

theorem State.deciding_history : ((s.deciding c q rs).ch c).ee.history = (s.ch c).ee.history := by
  rw [s.ch_deciding c q rs]
  exact (congrArg Excess.history (s.isMeasured c q).ee).trans rfl

theorem State.deciding_lane : ((s.deciding c q rs).ch c).ee.lane = (s.ch c).ee.lane := by
  rw [s.ch_deciding c q rs]
  exact (congrArg Excess.lane (s.isMeasured c q).ee).trans rfl

theorem State.deciding_unheldTerms : (s.deciding c q rs).unheldTerms c z = s.unheldTerms c z := by
  unfold State.unheldTerms
  rw [s.deciding_active c q rs, s.deciding_override c q rs]
  rfl

theorem State.deciding_marksLane : (s.deciding c q rs).marksLane c z a = s.marksLane c z a := by
  rw [State.marksLane, State.marksLane, s.deciding_unheldTerms c q rs z]

theorem State.deciding_youngLanes : (s.deciding c q rs).youngLanes c = s.youngLanes c := by
  unfold State.youngLanes
  refine congrArg List.length (List.filter_congr fun d _ => decide_eq_decide.2 (and_congr_right fun other => ?_))
  have same : (s.deciding c q rs).ch d = s.ch d := (s.requesting rs).sameOthers_setCh c (s.windowed c q) d other
  rw [same]
  rfl

theorem State.deciding_holdAfter : (s.deciding c q rs).holdAfter c z a = s.holdAfter c z a := by
  unfold State.holdAfter
  rw [s.deciding_marksLane c q rs z a, s.deciding_youngLanes c q rs]
  rfl

theorem State.deciding_laneAfter : (s.deciding c q rs).laneAfter c z a = s.laneAfter c z a := by
  unfold State.laneAfter
  rw [s.deciding_marksLane c q rs z a, s.deciding_lane c q rs]
  rfl

theorem State.deciding_decidedTerms : (s.deciding c q rs).decidedTerms c z a = s.decidedTerms c z a := by
  unfold State.decidedTerms
  rw [s.deciding_unheldTerms c q rs z, s.deciding_holdAfter c q rs z a, s.deciding_active c q rs]

theorem State.deciding_historyAfter : (s.deciding c q rs).historyAfter c z a = s.historyAfter c z a := by
  unfold State.historyAfter
  rw [s.deciding_decidedTerms c q rs z a, s.deciding_history c q rs]

theorem State.deciding_effortVerdict : (s.deciding c q rs).effortVerdict c z a = s.effortVerdict c z a := by
  unfold State.effortVerdict State.effortEntries
  rw [s.deciding_historyAfter c q rs z a, s.deciding_active c q rs]

end

/-! ## A full window -/

theorem Excess.average_full {e : Excess} (full : e.Full) : e.average = some ((e.newestFirst.map Slot.value).sum.fdiv 8) := by
  have isFull := e.full_iff.2 full
  rw [Excess.average, if_pos isFull, Excess.windowSum_full isFull, foldl_add_sum, zero_add]

theorem Excess.Writes.full {e e' : Excess} {sl : Slot} (h : e.Writes e' sl) (filled : sl.tag ≠ .empty)
    (others : ∀ i : Fin 8, i ≠ e.top + 1 → e.slots[i].tag ≠ .empty) : e'.Full := by
  intro i
  rw [h.slot i, Excess.slotAfter]
  split
  · exact filled
  · rename_i other
    exact others i other

/-- Stage 6 of a full window outside the seal zone and below the hard limit. -/
theorem State.decides_full {s : State} {c : ChanId} {q : EvalRequest} (rs : List EvalRequest) {x a : Int} {tag : SlotTag}
    (outside : ¬s.Sealed c q) (ending : (s.evalOutcome c q).ending = .complete x tag)
    (soft : ¬(tag = .valid ∧ ((s.ch c).ms.active.get .tHard : Int) < x)) (filled : (s.windowed c q).ee.average = some a) :
    let z := openZone (s.ch c).ms.active q.position
    s.Decides c q rs (s.effortVerdict c z a) (some (s.decidedTerms c z a)) (s.holdAfter c z a) (s.laneAfter c z a) (s.historyAfter c z a) := by
  intro z
  have zone : zoneAt ((s.deciding c q rs).ch c).ms.active q.position = z := by
    rw [s.deciding_active c q rs]
    exact zoneAt_open outside
  have average : ((s.deciding c q rs).ch c).ee.average = some a := by
    rw [s.ch_deciding c q rs]
    exact filled
  unfold State.Decides
  rw [ending, State.stage6_decides (s.deciding_outside rs outside) (by rw [s.deciding_active c q rs]; exact soft) average, zone,
    State.decide102_terms, s.deciding_effortVerdict c q rs z a, s.deciding_decidedTerms c q rs z a, s.deciding_holdAfter c q rs z a,
    s.deciding_historyAfter c q rs z a, s.deciding_laneAfter c q rs z a, s.ch_deciding c q rs]

/-- Settles O56. -/
theorem decisionFollowsThreshold : Obligations.DecisionFollowsThreshold := by
  refine ⟨?_, ?_⟩
  · intro s c z a _ k ps base marks young hold teff history r
    have decided : r = (s.effortVerdict c z a, teff, (s.holding hold).setCh c
        { s.ch c with ee := { (s.ch c).ee with history := history, lane := s.laneAfter c z a } }) := s.decide102_terms c z a
    have chan : ((s.holding hold).setCh c { s.ch c with ee := { (s.ch c).ee with history := history, lane := s.laneAfter c z a } }).ch c =
      { s.ch c with ee := { (s.ch c).ee with history := history, lane := s.laneAfter c z a } } := State.ch_setCh_self _ c _
    rw [decided]
    dsimp only
    rw [chan]
    exact ⟨rfl, rfl, rfl, rfl, rfl, (s.holding hold).sameOthers_setCh c _⟩
  · intro s c q before after x tag requests first chan drive travel stamped k ps cell o isComplete above soft others slot newest a zone base
      marks young hold teff history summary pinched n
    have taken : s.Evaluates c q before after := ⟨requests, first, chan, drive, .inl travel⟩
    have isOutcome : o = s.evalOutcome c q := s.evalOutcome_eq c q
    clear_value o
    subst isOutcome
    have outside : ¬s.Sealed c q := not_lt.2 above
    have isSlot := Ending.slot_complete isComplete
    have windowed := s.windowed_writes c q
    rw [isSlot] at windowed
    have full : (s.windowed c q).ee.Full := windowed.full (EvalInput.tag_of_complete _ x tag isComplete) others
    have average : (s.windowed c q).ee.average = some a := by
      rw [Excess.average_full full, windowed.newestFirst]
      rfl
    obtain ⟨t, run, writes, written, -, acted⟩ := State.evaluation_complete taken isComplete stamped
      (State.decides_full (before ++ after) outside isComplete (fun ⟨valid, hard⟩ => absurd hard (not_lt.2 (soft valid))) average)
    rw [State.summaryAfter, average] at acted
    obtain ⟨sameOthers, arbiter, device, lines, supply, clock, link, effort⟩ := acted.frame
    obtain ⟨cells, position, known⟩ := acted.kept
    obtain ⟨top, -, -⟩ := id written
    have ee := acted.ee
    refine ⟨t, run, top, written.slot, by rw [ee]; rfl, by rw [ee]; rfl, by rw [ee]; rfl, effort, cells, position, known,
      fun noPinch => ?_, fun isPinch noOverride => ?_, fun isPinch override => ?_, sameOthers, arbiter, device, lines, supply, clock, link⟩
    · have verdict : s.effortVerdict c (openZone (s.ch c).ms.active q.position) a = .clear := if_neg noPinch
      rw [verdict] at acted
      exact acted.drivesOn
    · have verdict : s.effortVerdict c (openZone (s.ch c).ms.active q.position) a = .pinch .pinchEffort := if_pos isPinch
      rw [verdict] at acted
      exact State.ActedOn.backsOff acted writes outside rfl noOverride
    · have verdict : s.effortVerdict c (openZone (s.ch c).ms.active q.position) a = .pinch .pinchEffort := if_pos isPinch
      rw [verdict] at acted
      exact State.ActedOn.overrides acted writes override

end Sys2Proof.Machine
end
